-- ==== Sys2Proof/Word.lean ====
section
/-! DEFINITION. The plainest types: the selector byte, the 16 bit duration field, texts and the duty cycle. -/

namespace Sys2Proof

/-- The operation word `CMD8`: bits 7 to 0 are the selector `OP` (30_encoding.md R99). -/
abbrev OpByte := BitVec 8

/-- The duration field of a symbol record, 16 bits (30_encoding.md R93). -/
abbrev Duration := BitVec 16

/-- A text: any finite string of characters (10_state.md R20). -/
abbrev Text := List Char

/-- A duty cycle: an exact rational; only equality, copy and rendering are used (10_state.md R39). -/
abbrev Duty := Rat

end Sys2Proof
end

