-- ==== Sys2Proof/Config.lean ====
section
/-! DEFINITION. What an implementation fixes: the constants of 00_scope.md R5, the types of the parameters of R6
and of the protocol table, and the free values behind the draws of `ENV`. The default values of the parameters are
in Machine/Defaults.lean. -/

namespace Sys2Proof

/-! ## Constants the source fixes (R5) -/

/-- `DUR_MAX`: the largest value of one duration element. -/
abbrev Config.durMax : Nat := 65535

/-- `PAD_SPACE`: the idle element appended to make a length even. -/
abbrev Config.padSpace : Nat := 1

/-- `RX_SYMBOLS`: symbol records of the receive buffer. -/
abbrev Config.rxSymbols : Nat := 256

/-- `RUNS_PER_SYMBOL`: level/duration pairs of one symbol record. -/
abbrev Config.runsPerSymbol : Nat := 2

/-- `RECENT_CAP`: entries of the recent ring buffer. -/
abbrev Config.recentCap : Nat := 16

/-- `LOAD_CAP`: records kept by one load. -/
abbrev Config.loadCap : Nat := 100

/-- `BITS_DEFAULT`: the `bits` field of a record that has none. -/
abbrev Config.bitsDefault : Nat := 32

/-! ## The protocol table and the parameters (10_state.md R28, R29; 00_scope.md R6) -/

/-- The encoding family of a protocol (R29). -/
inductive Family where
  | pd
  | pw
  | biphase
deriving DecidableEq, Repr

/-- Which bit of the packed data value is sent first (R29, R65). -/
inductive BitOrder where
  | lsbFirst
  | msbFirst
deriving DecidableEq, Repr

/-- The immutable descriptor of one named protocol (R29). A timing of 0 means "not declared". -/
structure ProtocolSpec where
  family : Family
  carrierHz : Nat
  duty : Duty
  headerMark : Nat
  headerSpace : Nat
  oneMark : Nat
  oneSpace : Nat
  zeroMark : Nat
  zeroSpace : Nat
  trailerMark : Nat
  trailerSpace : Nat
  bitOrder : BitOrder
  unit : Nat
  nbits : Nat
  oneActiveFirst : Bool
  doubleIdx : Option Nat
deriving DecidableEq, Repr

/-- `RC5_LAYOUT`: which RC5 frame is built (R6; 90_conflicts.md C3). -/
inductive Rc5Layout where
  | listed15
  | std14
deriving DecidableEq, Repr

/-- `KASEIKYO_FIELDS`: the bit position of each Kaseikyo field, in the swapped address and command and in the bytes
that hold it (R6; 42_encoder_protocols.md R180). -/
structure KaseikyoFields where
  idAt : Nat
  vendorAt : Nat
  genre1At : Nat
  genre2At : Nat
  dataAt : Nat
  parityInByte2 : Nat
  genre1InByte2 : Nat
  dataLowInByte3 : Nat
  genre2InByte3 : Nat
  idInByte4 : Nat
  dataHighInByte4 : Nat
deriving DecidableEq, Repr

/-- The parameters of one implementation (R6, R27, R28). No step writes them. -/
structure Params where
  /-- `PROTO_TABLE`, in row order. -/
  table : List (Text × ProtocolSpec)
  defaultDuty : Duty
  rawDefaultFreq : Nat
  rc5Layout : Rc5Layout
  kaseikyo : KaseikyoFields
  decodeTolPct : Nat
  txPin : Nat
deriving DecidableEq, Repr

/-! ## The operator's input flags and the free values of `ENV` -/

/-- The four edge-triggered input flags (00_scope.md R12, 60_exceptions.md R313). -/
structure InputFlags where
  next : Bool
  previous : Bool
  select : Bool
  escape : Bool
deriving DecidableEq, Repr

/-- Free value: the draw `alloc_ok` (43_transmit.md R200, 44_receive.md R220), by draw number. -/
opaque Config.allocOk : Nat → Bool

/-- Free value: whether the engine, with a frame in flight, completes before the pin is driven low
(43_transmit.md R204, 93_implementation_defined.md 1.3). -/
opaque Config.engineCompletes : Nat → Bool

/-- Free value: how many pairs of the frame the engine has begun to play when a finite `MAXWAIT` elapses
(43_transmit.md R203, R207). -/
opaque Config.pairsPlayed : Nat → Nat

/-- Free value: the entry `promptChoice` answers (00_scope.md R12). -/
opaque Config.chosenEntry : Nat → Nat

/-- Free value: the text `promptText` answers (00_scope.md R12). -/
opaque Config.typedText : Nat → Text

/-- Free value: whether a finite `MAXWAIT` elapses before the engine completes (43_transmit.md R207). -/
opaque Config.waitExpires : Nat → Bool

/-- Free value: the Boolean answer of `STORE` (46_session.md R282). -/
opaque Config.storeOk : Nat → Bool

/-- Free value: what opening and reading a file gives, `none` when it cannot be opened (46_session.md R282). -/
opaque Config.readAnswer : Nat → Option Text

/-- Free value: the finite list of samples `ENV` gives at one record boundary (46_session.md R279). -/
opaque Config.boundarySamples : Nat → List InputFlags

end Sys2Proof
end

