-- ==== Sys2Proof/Syntax.lean ====
section
/-! DEFINITION. The operation set (one constructor per row of spec/opcode_table.json) and the data formats its
operands have (30_encoding.md R90 to R95). -/

namespace Sys2Proof

/-- The 39 operations of 30_encoding.md R100. The operation word has no field besides the selector (R99), so no
constructor has an argument; operands are read from registers and argument latches. -/
inductive Instr where
  /-- PRIM.APPENDRUN (R130) -/
  | primAppendrun
  /-- PRIM.COALESCE (R131) -/
  | primCoalesce
  /-- FAM.PD (R151) -/
  | famPd
  /-- FAM.PW (R152) -/
  | famPw
  /-- FAM.BIPHASE (R153) -/
  | famBiphase
  /-- ENC.NEC (R171) -/
  | encNec
  /-- ENC.NECEXT (R172) -/
  | encNecext
  /-- ENC.RC5 (R173) -/
  | encRc5
  /-- ENC.RC6 (R174) -/
  | encRc6
  /-- ENC.SAMSUNG32 (R175) -/
  | encSamsung32
  /-- ENC.SIRC (R177) -/
  | encSirc
  /-- ENC.SIRC15 (R178) -/
  | encSirc15
  /-- ENC.SIRC20 (R179) -/
  | encSirc20
  /-- ENC.KASEIKYO (R180) -/
  | encKaseikyo
  /-- ENC.RAW (R181) -/
  | encRaw
  /-- ENC.AUTO (R170) -/
  | encAuto
  /-- TX.ENSURE (R200) -/
  | txEnsure
  /-- TX.SEND (R201) -/
  | txSend
  /-- TX.SENDCMD (R205) -/
  | txSendcmd
  /-- RX.INIT (R220) -/
  | rxInit
  /-- RX.POLL (R227) -/
  | rxPoll
  /-- RX.REARM (R228) -/
  | rxRearm
  /-- RX.DRAIN (R229) -/
  | rxDrain
  /-- RX.RESTART (R230) -/
  | rxRestart
  /-- RX.DEINIT (R231) -/
  | rxDeinit
  /-- NORM (R250) -/
  | norm
  /-- SEQ.TOTEXT (R251) -/
  | seqTotext
  /-- SEQ.FROMTEXT (R252) -/
  | seqFromtext
  /-- DEC.MATCH (R253) -/
  | decMatch
  /-- SES.ENTER (R270) -/
  | sesEnter
  /-- SES.CAPTURE (R271) -/
  | sesCapture
  /-- SES.COMMIT (R272) -/
  | sesCommit
  /-- SES.DISCARD (R273) -/
  | sesDiscard
  /-- SES.FLUSH (R274) -/
  | sesFlush
  /-- SES.EXIT (R275) -/
  | sesExit
  /-- RPL.LOAD (R276) -/
  | rplLoad
  /-- RPL.SELECT (R277) -/
  | rplSelect
  /-- RPL.SPAMALL (R278) -/
  | rplSpamall
  /-- REC.INSERT (R280) -/
  | recInsert
deriving DecidableEq, Repr

/-- Polarity of a run: `Mark` is active, `Space` is idle (R91). -/
inductive Polarity where
  | mark
  | space
deriving DecidableEq, Repr

/-- A run: polarity and duration in microseconds, any natural number (R91). -/
structure Run where
  pol : Polarity
  dur : Nat
deriving DecidableEq, Repr

/-- A timing sequence as it is held: durations in microseconds, mark first (R92). -/
abbrev TimingSeq := List Nat

/-- A symbol record: two level/duration pairs; level true is 1 (R93). -/
structure Symbol where
  duration0 : Duration
  level0 : Bool
  duration1 : Duration
  level1 : Bool
deriving DecidableEq, Repr

/-- A raw batch: the symbol records of one completed capture and its `TRUNC` flag (R94). -/
structure RawBatch where
  symbols : List Symbol
  truncated : Bool
deriving DecidableEq, Repr

/-- A command record, the nine operand registers of 10_state.md R20 (R95). -/
structure Command where
  type : Text
  protocol : Text
  address : Text
  command : Text
  data : Text
  bits : Nat
  frequency : Nat
  name : Text
  path : Text
deriving DecidableEq, Repr

/-- `RXCFG`: the five arguments of RX.INIT (10_state.md R26). -/
structure RxConfig where
  pin : Nat
  idleThresholdNs : Nat
  minPulseNs : Nat
  maxPulseNs : Nat
  activeLow : Bool
deriving DecidableEq, Repr

/-- One interval of an input waveform: physical level (true is High) and length in nanoseconds (44_receive.md R221). -/
structure Interval where
  high : Bool
  ns : Nat
deriving DecidableEq, Repr

/-- The argument latches: the arguments "listed in the operation's rule" (R99), for the operations whose operands are
not registers. DESIGN CHOICE (log 2).
`seq` is TX.SEND's sequence from outside; `none` takes the register `SEQ`. -/
structure Args where
  /-- PRIM.APPENDRUN, PRIM.COALESCE: the run list. -/
  runs : List Run
  /-- PRIM.APPENDRUN: the polarity. -/
  pol : Polarity
  /-- PRIM.APPENDRUN: the duration in microseconds. -/
  dur : Nat
  /-- FAM.PD, FAM.PW, FAM.BIPHASE: the protocol descriptor `P`. -/
  spec : ProtocolSpec
  /-- FAM.PD, FAM.PW, FAM.BIPHASE: the data value. -/
  word : Nat
  /-- FAM.PD, FAM.PW, FAM.BIPHASE: the bit count. -/
  nbits : Nat
  /-- TX.SEND: a list of durations from outside, or `none` for `SEQ`. -/
  seq : Option (List Nat)
  /-- TX.ENSURE, TX.SEND. -/
  carrierHz : Nat
  /-- TX.ENSURE, TX.SEND. -/
  duty : Duty
  /-- TX.ENSURE, TX.SEND (false when omitted). -/
  invert : Bool
  /-- RX.INIT, SES.ENTER: the five receive arguments. -/
  rx : RxConfig
  /-- NORM: the raw batch. -/
  batch : RawBatch
  /-- SEQ.FROMTEXT: the text. -/
  text : Text
  /-- SES.FLUSH, RPL.LOAD, RPL.SPAMALL: the file name. -/
  path : Text
  /-- SES.FLUSH: the device name. -/
  devname : Text
  /-- RPL.SELECT: the index into the catalog. -/
  index : Nat
deriving DecidableEq, Repr

end Sys2Proof
end

