-- ==== Sys2Proof/WellFormed.lean ====
section
/-! DEFINITION. Well-formedness of the data formats (30_encoding.md R91 to R94, 10_state.md R29, R39) and of an
operation's operands. An operation word has no operand field (R99), so what can be ill-formed is an operand.
None of these is checked by the hardware: the operations are total and say themselves what they do. -/

namespace Sys2Proof

/-- A run inside a run list that APPENDRUN makes: duration 1 to 65535 (R91). -/
def Run.wf (r : Run) : Bool := decide (1 ≤ r.dur ∧ r.dur ≤ Config.durMax)

/-- A timing sequence: even length, every element in 1 to 65535 (R92). -/
def TimingSeq.wf (q : TimingSeq) : Bool :=
  decide (q.length % 2 = 0) && q.all (fun d => decide (1 ≤ d ∧ d ≤ Config.durMax))

/-- A raw batch the capture engine may deliver: 1 to 256 symbols, truncated only when full (R94, R225, R232).
Durations and levels are in range by their types. -/
def RawBatch.wf (b : RawBatch) : Bool :=
  decide (1 ≤ b.symbols.length ∧ b.symbols.length ≤ Config.rxSymbols)
    && (!b.truncated || decide (b.symbols.length = Config.rxSymbols))

/-- A duty cycle in the closed interval 0 to 1 (R39). -/
def Duty.wf (d : Duty) : Bool := decide (0 ≤ d ∧ d ≤ 1)

/-- A protocol descriptor: a duty in range, and a doubled bit only in the biphase family and inside the frame (R29). -/
def ProtocolSpec.wf (p : ProtocolSpec) : Bool :=
  Duty.wf p.duty &&
    match p.doubleIdx with
    | none => true
    | some i => decide (p.family = .biphase ∧ i < p.nbits)

/-- A protocol table: each name once, each descriptor well formed (R28). -/
def Params.wf (p : Params) : Bool :=
  decide ((p.table.map (·.1)).Nodup) && p.table.all (fun row => row.2.wf) && Duty.wf p.defaultDuty

/-- A waveform on the receive pin: positive lengths, neighbours of different level (44_receive.md R221). -/
def waveWf : List Interval → Bool
  | [] => true
  | [a] => decide (0 < a.ns)
  | a :: b :: rest => decide (0 < a.ns) && (a.high != b.high) && waveWf (b :: rest)

/-- The argument latches hold operands of the kind the operation's rule asks for. -/
def Args.wfFor (a : Args) : Instr → Bool
  | .famPd => decide (a.spec.family = .pd) && a.spec.wf
  | .famPw => decide (a.spec.family = .pw) && a.spec.wf
  | .famBiphase => decide (a.spec.family = .biphase) && a.spec.wf
  | .txEnsure | .txSend => Duty.wf a.duty
  | .norm => a.batch.wf
  | .primAppendrun | .primCoalesce | .encNec | .encNecext | .encRc5 | .encRc6 | .encSamsung32 | .encSirc
  | .encSirc15 | .encSirc20 | .encKaseikyo | .encRaw | .encAuto | .txSendcmd | .rxInit | .rxPoll | .rxRearm
  | .rxDrain | .rxRestart | .rxDeinit | .seqTotext | .seqFromtext | .decMatch | .sesEnter | .sesCapture
  | .sesCommit | .sesDiscard | .sesFlush | .sesExit | .rplLoad | .rplSelect | .rplSpamall | .recInsert => true

end Sys2Proof
end

