-- ==== Sys2Proof/Decode.lean ====
section
/-! DEFINITION. The operation word `CMD8` (30_encoding.md R99, R100, R109): decoder, encoder and the host's view of
the table. -/

namespace Sys2Proof

/-- Why a byte list is no operation. -/
inductive DecodeError where
  /-- no byte to read -/
  | noWord
  /-- a selector outside the operation map (R109) -/
  | reservedSelector (op : OpByte)
deriving DecidableEq, Repr

/-- The selector `OP` of each operation (R100). -/
def selector : Instr → OpByte
  | .primAppendrun => 0x01#8
  | .primCoalesce => 0x02#8
  | .famPd => 0x04#8
  | .famPw => 0x05#8
  | .famBiphase => 0x06#8
  | .encNec => 0x10#8
  | .encNecext => 0x11#8
  | .encRc5 => 0x12#8
  | .encRc6 => 0x13#8
  | .encSamsung32 => 0x14#8
  | .encSirc => 0x15#8
  | .encSirc15 => 0x16#8
  | .encSirc20 => 0x17#8
  | .encKaseikyo => 0x18#8
  | .encRaw => 0x19#8
  | .encAuto => 0x1F#8
  | .txEnsure => 0x20#8
  | .txSend => 0x21#8
  | .txSendcmd => 0x22#8
  | .rxInit => 0x30#8
  | .rxPoll => 0x31#8
  | .rxRearm => 0x32#8
  | .rxDrain => 0x33#8
  | .rxRestart => 0x34#8
  | .rxDeinit => 0x35#8
  | .norm => 0x40#8
  | .seqTotext => 0x41#8
  | .seqFromtext => 0x42#8
  | .decMatch => 0x43#8
  | .sesEnter => 0x50#8
  | .sesCapture => 0x51#8
  | .sesCommit => 0x52#8
  | .sesDiscard => 0x53#8
  | .sesFlush => 0x54#8
  | .sesExit => 0x55#8
  | .rplLoad => 0x60#8
  | .rplSelect => 0x61#8
  | .rplSpamall => 0x62#8
  | .recInsert => 0x63#8

/-- The operation a selector names, none for a reserved one (R100, R109). -/
def decodeSelector (op : OpByte) : Option Instr :=
  match op.toNat with
  | 0x01 => some .primAppendrun
  | 0x02 => some .primCoalesce
  | 0x04 => some .famPd
  | 0x05 => some .famPw
  | 0x06 => some .famBiphase
  | 0x10 => some .encNec
  | 0x11 => some .encNecext
  | 0x12 => some .encRc5
  | 0x13 => some .encRc6
  | 0x14 => some .encSamsung32
  | 0x15 => some .encSirc
  | 0x16 => some .encSirc15
  | 0x17 => some .encSirc20
  | 0x18 => some .encKaseikyo
  | 0x19 => some .encRaw
  | 0x1F => some .encAuto
  | 0x20 => some .txEnsure
  | 0x21 => some .txSend
  | 0x22 => some .txSendcmd
  | 0x30 => some .rxInit
  | 0x31 => some .rxPoll
  | 0x32 => some .rxRearm
  | 0x33 => some .rxDrain
  | 0x34 => some .rxRestart
  | 0x35 => some .rxDeinit
  | 0x40 => some .norm
  | 0x41 => some .seqTotext
  | 0x42 => some .seqFromtext
  | 0x43 => some .decMatch
  | 0x50 => some .sesEnter
  | 0x51 => some .sesCapture
  | 0x52 => some .sesCommit
  | 0x53 => some .sesDiscard
  | 0x54 => some .sesFlush
  | 0x55 => some .sesExit
  | 0x60 => some .rplLoad
  | 0x61 => some .rplSelect
  | 0x62 => some .rplSpamall
  | 0x63 => some .recInsert
  | _ => none

/-- Decoding of a byte list: the operation and the bytes after it (R99: one byte, no second length). -/
def decode : List OpByte → Except DecodeError (Instr × List OpByte)
  | [] => .error .noWord
  | op :: rest =>
    match decodeSelector op with
    | some i => .ok (i, rest)
    | none => .error (.reservedSelector op)

/-- The bytes of an operation (R99). -/
def encode (i : Instr) : List OpByte := [selector i]

/-- The host's view: the operation the decoder reads from the bits `w`, the low byte the operation word. -/
def decodeTableWord (_nbits w : Nat) : Option Instr :=
  match decode [BitVec.ofNat 8 w] with
  | .ok (i, _) => some i
  | .error _ => none

end Sys2Proof
end

