-- ==== Sys2Proof/Machine/Defaults.lean ====
section
/-! DEFINITION. The default values of the parameters (00_scope.md R6): the nine protocol names (30_encoding.md R101),
the default protocol table (10_state.md R30) and the default `KASEIKYO_FIELDS` (42_encoder_protocols.md R180). -/

namespace Sys2Proof.Machine

/-! ## The keys of the default table (R101) -/

/-- `NEC` -/
def necName : Text := ['N', 'E', 'C']

/-- `NECext` -/
def necextName : Text := ['N', 'E', 'C', 'e', 'x', 't']

/-- `Samsung32` -/
def samsung32Name : Text := ['S', 'a', 'm', 's', 'u', 'n', 'g', '3', '2']

/-- `SIRC` -/
def sircName : Text := ['S', 'I', 'R', 'C']

/-- `SIRC15` -/
def sirc15Name : Text := ['S', 'I', 'R', 'C', '1', '5']

/-- `SIRC20` -/
def sirc20Name : Text := ['S', 'I', 'R', 'C', '2', '0']

/-- `Kaseikyo` -/
def kaseikyoName : Text := ['K', 'a', 's', 'e', 'i', 'k', 'y', 'o']

/-- `RC5` -/
def rc5Name : Text := ['R', 'C', '5']

/-- `RC6` -/
def rc6Name : Text := ['R', 'C', '6']

/-! ## The rows of the default table (R30). 33/100 is `mkRat 33 100`; a `-` cell is 0. -/

/-- Duty of every default row and `DEFAULT_DUTY` (R6, R30). -/
def dutyDefault : Duty := mkRat 33 100

/-- `NEC` -/
def necSpec : ProtocolSpec :=
  { family := .pd, carrierHz := 38000, duty := dutyDefault, headerMark := 9000, headerSpace := 4500,
    oneMark := 560, oneSpace := 1690, zeroMark := 560, zeroSpace := 560, trailerMark := 560, trailerSpace := 0,
    bitOrder := .lsbFirst, unit := 0, nbits := 32, oneActiveFirst := false, doubleIdx := none }

/-- `NECext`: the timings of `NEC`, sent most significant bit first -/
def necextSpec : ProtocolSpec :=
  { family := .pd, carrierHz := 38000, duty := dutyDefault, headerMark := 9000, headerSpace := 4500,
    oneMark := 560, oneSpace := 1690, zeroMark := 560, zeroSpace := 560, trailerMark := 560, trailerSpace := 0,
    bitOrder := .msbFirst, unit := 0, nbits := 32, oneActiveFirst := false, doubleIdx := none }

/-- `Samsung32` -/
def samsung32Spec : ProtocolSpec :=
  { family := .pd, carrierHz := 38000, duty := dutyDefault, headerMark := 4500, headerSpace := 4500,
    oneMark := 560, oneSpace := 1690, zeroMark := 560, zeroSpace := 560, trailerMark := 560, trailerSpace := 0,
    bitOrder := .lsbFirst, unit := 0, nbits := 32, oneActiveFirst := false, doubleIdx := none }

/-- `SIRC`, `SIRC15`, `SIRC20`: one row each, alike but for the bit count. `one_space` is not used by the family and
holds the row's 600. -/
def sircSpec (n : Nat) : ProtocolSpec :=
  { family := .pw, carrierHz := 40000, duty := dutyDefault, headerMark := 2400, headerSpace := 600,
    oneMark := 1200, oneSpace := 600, zeroMark := 600, zeroSpace := 600, trailerMark := 0, trailerSpace := 0,
    bitOrder := .msbFirst, unit := 0, nbits := n, oneActiveFirst := false, doubleIdx := none }

/-- `Kaseikyo` -/
def kaseikyoSpec : ProtocolSpec :=
  { family := .pd, carrierHz := 37000, duty := dutyDefault, headerMark := 3456, headerSpace := 1728,
    oneMark := 432, oneSpace := 1296, zeroMark := 432, zeroSpace := 432, trailerMark := 432, trailerSpace := 0,
    bitOrder := .msbFirst, unit := 0, nbits := 48, oneActiveFirst := false, doubleIdx := none }

/-- The RC5 frame length under each layout (R173; 90_conflicts.md C3). -/
def rc5Bits : Rc5Layout → Nat
  | .listed15 => 15
  | .std14 => 14

/-- `RC5` -/
def rc5Spec (l : Rc5Layout) : ProtocolSpec :=
  { family := .biphase, carrierHz := 36000, duty := dutyDefault, headerMark := 0, headerSpace := 0,
    oneMark := 0, oneSpace := 0, zeroMark := 0, zeroSpace := 0, trailerMark := 0, trailerSpace := 0,
    bitOrder := .msbFirst, unit := 889, nbits := rc5Bits l, oneActiveFirst := true, doubleIdx := none }

/-- `RC6` -/
def rc6Spec : ProtocolSpec :=
  { family := .biphase, carrierHz := 36000, duty := dutyDefault, headerMark := 2666, headerSpace := 889,
    oneMark := 0, oneSpace := 0, zeroMark := 0, zeroSpace := 0, trailerMark := 0, trailerSpace := 0,
    bitOrder := .msbFirst, unit := 444, nbits := 20, oneActiveFirst := true, doubleIdx := some 3 }

/-- The default `PROTO_TABLE`, in the row order of R30. -/
def defaultTable (l : Rc5Layout) : List (Text × ProtocolSpec) :=
  [(necName, necSpec), (necextName, necextSpec), (samsung32Name, samsung32Spec),
   (sircName, sircSpec 12), (sirc15Name, sircSpec 15), (sirc20Name, sircSpec 20),
   (kaseikyoName, kaseikyoSpec), (rc5Name, rc5Spec l), (rc6Name, rc6Spec)]

/-- The default `KASEIKYO_FIELDS` (R180). -/
def defaultKaseikyo : KaseikyoFields :=
  { idAt := 24, vendorAt := 8, genre1At := 4, genre2At := 0, dataAt := 0,
    parityInByte2 := 0, genre1InByte2 := 4, dataLowInByte3 := 4, genre2InByte3 := 0,
    idInByte4 := 6, dataHighInByte4 := 0 }

/-- The parameters at their defaults, for either RC5 layout (R6). `txPin` has no source value: DESIGN CHOICE (log 5). -/
def paramsFor (l : Rc5Layout) : Params :=
  { table := defaultTable l, defaultDuty := dutyDefault, rawDefaultFreq := 38000, rc5Layout := l,
    kaseikyo := defaultKaseikyo, decodeTolPct := 25, txPin := 0 }

/-- The default parameters: `RC5_LAYOUT = LISTED15` (R6). -/
def defaultParams : Params := paramsFor .listed15

end Sys2Proof.Machine
end

