-- ==== Sys2Proof/Machine/State.lean ====
section
/-! DEFINITION. Everything the spec gives the machine (10_state.md R20 to R39, 30_encoding.md R99), the model's own
fields beside it, the reasons a step can stop, and the state after reset (R38). -/

namespace Sys2Proof.Machine

/-! ## Values of the status registers -/

/-- The result codes, the values of `RESULT` (60_exceptions.md R301). -/
inductive ResultCode where
  | ok
  | eEmptySeq
  | eNotSupported
  | eMalformedHex
  | eStorage
  | eBackpressure
  | eNotInit
  | eBadState
  | eTimeout
  | eCancelled
  | wTruncated
  | fHwAlloc
  | fFaulted
deriving DecidableEq, Repr

/-- The value an operation returns beside its result code (00_scope.md R9, 30_encoding.md R99). DESIGN CHOICE (log 3). -/
inductive Value where
  /-- nothing, or RX.POLL's "none" -/
  | none
  /-- PRIM.APPENDRUN -/
  | runs (r : List Run)
  /-- RX.POLL -/
  | batch (b : RawBatch)
  /-- SEQ.TOTEXT -/
  | text (t : Text)
  /-- DEC.MATCH -/
  | decoded (name : Text) (data nbits : Nat)
  /-- the host's poll of an input flag -/
  | flag (b : Bool)
  /-- the entry that `promptChoice` answers, by its index (00_scope.md R12) -/
  | chosen (n : Nat)
deriving DecidableEq, Repr

/-- `RX_STATE` (10_state.md R23). -/
inductive RxState where
  | uninit
  | idle
  | armed
deriving DecidableEq, Repr

/-- `SES_STATE` (10_state.md R23, R31). -/
inductive SesState where
  | none
  | idle
  | held
deriving DecidableEq, Repr

/-- `tx_level`: emitter off, carrier during a mark, idle level during a space (10_state.md R36). -/
inductive TxLevel where
  | low
  | carrierOn
  | idleLevel
deriving DecidableEq, Repr

/-- `TXCFG` (10_state.md R24). -/
structure TxConfig where
  carrierHz : Nat
  duty : Duty
  invert : Bool
deriving DecidableEq, Repr

/-- The events of `tx_trace` (10_state.md R37). A frame is its (level, duration) pairs in order. -/
inductive TxEvent where
  | config (c : TxConfig)
  | frame (pairs : List (Bool × Nat))
  | pinLow
deriving DecidableEq, Repr

/-- The depth-1 handoff queue: not created, empty, or holding one batch (10_state.md R34, R38; 20_memory.md R74). -/
inductive Queue where
  | absent
  | empty
  | full (b : RawBatch)
deriving DecidableEq, Repr

/-! ## The units -/

/-- The transmit side: `TX_ALLOC`, `TX_BUSY`, `TXCFG`, `TXBUF`, the engine's place in it, `tx_level`, `tx_trace`. -/
structure TxUnit where
  alloc : Bool
  busy : Bool
  cfg : Option TxConfig
  /-- the records of the last packed frame (log 8) -/
  buf : List Symbol
  /-- the pairs of `buf` that the engine has begun to play of the frame in flight, 0 with none in flight (R203; log 19) -/
  played : Nat
  level : TxLevel
  trace : List TxEvent
deriving DecidableEq, Repr

/-- The receive side: `RX_STATE`, `RXCFG`, `RXBUF`, `QUEUE`, the registered callback. -/
structure RxUnit where
  state : RxState
  cfg : Option RxConfig
  /-- the entries written so far, from index 0 (log 8); between captures they stay, which the spec leaves open (log 34) -/
  buf : List Symbol
  queue : Queue
  callback : Bool
deriving DecidableEq, Repr

/-- The capture session `SES` (10_state.md R31). -/
structure Session where
  state : SesState
  count : Nat
  last : Text
  pending : Text
deriving DecidableEq, Repr

/-- The answers `ENV` will give, in order, for each kind of draw; a draw whose script is empty takes the free value of
Config at index `drawn`, which then advances. DESIGN CHOICE (log 4). -/
structure Env where
  allocs : List Bool
  waits : List Bool
  engine : List Bool
  plays : List Nat
  stores : List Bool
  reads : List (Option Text)
  boundaries : List (List InputFlags)
  choices : List Nat
  texts : List Text
  drawn : Nat
deriving DecidableEq, Repr

/-- The names of the input flags (R313). -/
inductive InputName where
  | next
  | previous
  | select
  | escape
deriving DecidableEq, Repr

/-- What the host has shown to the operator (00_scope.md R12). -/
inductive Shown where
  /-- `displayText(line)` -/
  | text (line : Text)
  /-- `displayError(msg)` -/
  | error (msg : Text)
deriving DecidableEq, Repr

/-- One call `STORE(path, text)`: what was handed to storage (00_scope.md R11). -/
structure Handed where
  path : Text
  text : Text
deriving DecidableEq, Repr

/-- What the host and the other agents do next (00_scope.md R10, R12). DESIGN CHOICE (log 1). -/
inductive Event where
  /-- HOST writes a selector to the command port (R99) -/
  | hostOp (op : OpByte)
  /-- HOST writes the operand registers (R20) -/
  | hostCommand (c : Command)
  /-- HOST writes the argument latches -/
  | hostArgs (a : Args)
  /-- HOST writes `SEQ` (70_reset_and_hazards.md R342); only a timing sequence is taken. R21 and R34 name no such
  writer. DESIGN CHOICE (log 31) -/
  | hostSeq (q : List Nat)
  /-- HOST writes `REPEAT` (R25) -/
  | hostRepeat (n : Nat)
  /-- HOST writes `MAXWAIT` (R25) -/
  | hostMaxWait (m : Option Nat)
  /-- HOST polls an input flag (R313) -/
  | hostPoll (f : InputName)
  /-- HOST calls `displayText(line)` or `displayError(msg)` (R12) -/
  | hostShow (what : Shown)
  /-- HOST calls `promptChoice(list-of-(label,action))` (R12) -/
  | hostChoice (labels : List Text)
  /-- HOST calls `promptText(title, maxLen, initial)` (R12) -/
  | hostText (title : Text) (maxLen : Nat) (initial : Text)
  /-- `configurePin(pinNumber, mode)` (R12, R27) -/
  | configurePin (pin mode : Nat)
  /-- TXENG begins to play the next pair of the frame in flight (R203) -/
  | txPlay
  /-- TXENG completes the frame in flight (R204) -/
  | txComplete
  /-- RXENG completes a capture with a batch chosen by ENV (R226, R232) -/
  | rxBatch (b : RawBatch)
  /-- a waveform on the receive pin, through the reference capture (R221 to R225) -/
  | rxWave (w : List Interval)
  /-- ENV sets input flags (R313) -/
  | input (f : InputFlags)
  /-- the external storage changes a file: new text, or content unknown (R282) -/
  | file (path : Text) (content : Option Text)
deriving DecidableEq, Repr

/-! ## The state -/

/-- The state of the block. The first group is the spec's, the second the model's own. -/
structure State where
  /-- `TYPE`, `PROTO`, `ADDR`, `CMD`, `DATA`, `BITS`, `FREQ`, `NAME`, `PATH` (R20) -/
  cmd : Command
  /-- `SEQ` (R21) -/
  seq : TimingSeq
  /-- `rec_idx` (R22) -/
  recIdx : Nat
  /-- `RESULT` (R23) -/
  result : ResultCode
  /-- `FAULT` (R23) -/
  fault : Bool
  /-- `REPEAT` (R25) -/
  repeats : Nat
  /-- `MAXWAIT`, `none` for indefinite (R25) -/
  maxWait : Option Nat
  tx : TxUnit
  rx : RxUnit
  ses : Session
  /-- `CAT` (R32) -/
  cat : List Command
  /-- `RECENT`, newest first (R33) -/
  recents : List Command
  /-- `PAUSED` (R23) -/
  paused : Bool
  /-- `next`, `previous`, `select`, `escape` (R23) -/
  flags : InputFlags
  /-- pin modes set by `configurePin`, pins strictly rising (R27) -/
  pinModes : List (Nat × Nat)
  /-- files whose text is known, paths strictly rising (R282) -/
  storage : List (Text × Text)
  /-- the texts handed to storage, oldest first; it only grows (00_scope.md R11) -/
  handed : List Handed
  /-- what the host has shown, oldest first; it only grows (00_scope.md R12) -/
  shown : List Shown
  /-- the selector waiting at the command port (R99) -/
  port : Option OpByte
  /-- `PROTO_TABLE` and the parameters (R6, R28): configuration, written by no step -/
  params : Params
  /-- the argument latches (R99; log 2) -/
  args : Args
  /-- the value the last operation returned (log 3) -/
  value : Value
  /-- the answers of `ENV` (log 4) -/
  env : Env
  /-- the events to come (log 1) -/
  agenda : List Event
deriving DecidableEq, Repr

/-- Why a step stops. -/
inductive Fault where
  /-- RPL.SPAMALL is paused and `ENV` gives no further sample at this boundary, so the operation does not end
  (46_session.md R279; 93_implementation_defined.md 1.5, "stuck"). Raised by RPL.SPAMALL only.
  Safe: the hardware loops on the two flags and does nothing else. -/
  | pausedForever
deriving DecidableEq, Repr

/-- Why a step has no meaning. -/
inductive Refusal where
  /-- An instruction whose meaning is not written yet. Raised by exec's arm only. Safe: nothing can be proved of it. -/
  | notModelled (mnemonic : String)
deriving DecidableEq, Repr

/-! ## Reset (R38, R340, R341) -/

/-- A command with empty fields: texts empty, `bits` 32, `frequency` 0, and the given path (R98, R281). -/
def blankCommand (path : Text) : Command :=
  { type := [], protocol := [], address := [], command := [], data := [], bits := Config.bitsDefault,
    frequency := 0, name := [], path := path }

/-- All four input flags low. -/
def noFlags : InputFlags := { next := false, previous := false, select := false, escape := false }

/-- A protocol descriptor with nothing declared: the argument latch after reset. -/
def blankSpec : ProtocolSpec :=
  { family := .pd, carrierHz := 0, duty := 0, headerMark := 0, headerSpace := 0, oneMark := 0, oneSpace := 0,
    zeroMark := 0, zeroSpace := 0, trailerMark := 0, trailerSpace := 0, bitOrder := .lsbFirst, unit := 0,
    nbits := 0, oneActiveFirst := false, doubleIdx := none }

/-- The argument latches after reset: empty, zero and false. DESIGN CHOICE (log 2). -/
def blankArgs : Args :=
  { runs := [], pol := .mark, dur := 0, spec := blankSpec, word := 0, nbits := 0, seq := none, carrierHz := 0,
    duty := 0, invert := false,
    rx := { pin := 0, idleThresholdNs := 0, minPulseNs := 0, maxPulseNs := 0, activeLow := false },
    batch := { symbols := [], truncated := false }, text := [], path := [], devname := [], index := 0 }

/-- No answer scripted: every draw is a free value. -/
def freeEnv : Env :=
  { allocs := [], waits := [], engine := [], plays := [], stores := [], reads := [], boundaries := [], choices := [],
    texts := [], drawn := 0 }

/-- The machine right after reset: the table of 10_state.md R38. -/
def State.reset : State :=
  { cmd := blankCommand []
    seq := []
    recIdx := 0
    result := .ok
    fault := false
    repeats := 0
    maxWait := none
    tx := { alloc := false, busy := false, cfg := none, buf := [], played := 0, level := .low, trace := [] }
    rx := { state := .uninit, cfg := none, buf := [], queue := .absent, callback := false }
    ses := { state := .none, count := 0, last := [], pending := [] }
    cat := []
    recents := []
    paused := false
    flags := noFlags
    pinModes := []
    storage := []
    handed := []
    shown := []
    port := none
    params := defaultParams
    args := blankArgs
    value := .none
    env := freeEnv
    agenda := [] }

end Sys2Proof.Machine
end

