-- ==== Sys2Proof/Machine/Flags.lean ====
section
/-! DEFINITION. The status flags: numbers and classes of the result codes (60_exceptions.md R300, R301), the views
`Q_FULL` and `TRUNC`, and the input flags that a poll clears (R313). -/

namespace Sys2Proof.Machine

/-- The number of a result code (R301). -/
def resultNumber : ResultCode → BitVec 8
  | .ok => 0x00#8
  | .eEmptySeq => 0x01#8
  | .eNotSupported => 0x02#8
  | .eMalformedHex => 0x03#8
  | .eStorage => 0x04#8
  | .eBackpressure => 0x05#8
  | .eNotInit => 0x06#8
  | .eBadState => 0x07#8
  | .eTimeout => 0x08#8
  | .eCancelled => 0x09#8
  | .wTruncated => 0x40#8
  | .fHwAlloc => 0x80#8
  | .fFaulted => 0x81#8

/-- The kinds of R300. -/
inductive ResultKind where
  | success
  | failure
  | warning
  | fault
deriving DecidableEq, Repr

/-- The kind of a result code (R300). -/
def resultKind : ResultCode → ResultKind
  | .ok => .success
  | .wTruncated => .warning
  | .fHwAlloc | .fFaulted => .fault
  | .eEmptySeq | .eNotSupported | .eMalformedHex | .eStorage | .eBackpressure | .eNotInit | .eBadState
  | .eTimeout | .eCancelled => .failure

/-- The Boolean of the source's interface: true for `OK` and `W_TRUNCATED`, false for every `E_*` (R301). The rule gives
none for the two `F_*` codes; the model answers false. DESIGN CHOICE (log 30). -/
def resultBool (c : ResultCode) : Bool :=
  match resultKind c with
  | .success | .warning => true
  | .failure | .fault => false

/-- `Q_FULL`: the handoff queue holds a batch (10_state.md R23). -/
def qFull (rx : RxUnit) : Bool :=
  match rx.queue with
  | .full _ => true
  | .absent | .empty => false

/-- The code NORM ends with for a batch: its `TRUNC` flag is the warning (R307). -/
def truncCode (b : RawBatch) : ResultCode := if b.truncated then .wTruncated else .ok

/-- ENV sets flags: a flag set twice before it is read is seen once (R313). -/
def setFlags (f g : InputFlags) : InputFlags :=
  { next := f.next || g.next, previous := f.previous || g.previous,
    select := f.select || g.select, escape := f.escape || g.escape }

/-- The value of a named flag. -/
def readFlag (n : InputName) (f : InputFlags) : Bool :=
  match n with
  | .next => f.next
  | .previous => f.previous
  | .select => f.select
  | .escape => f.escape

/-- A named flag made false. -/
def clearFlag (n : InputName) (f : InputFlags) : InputFlags :=
  match n with
  | .next => { f with next := false }
  | .previous => { f with previous := false }
  | .select => { f with select := false }
  | .escape => { f with escape := false }

/-- `read_and_clear(f)`: the value of the flag, and the flags with it false, in one step (R313). -/
def readAndClear (n : InputName) (f : InputFlags) : Bool × InputFlags := (readFlag n f, clearFlag n f)

end Sys2Proof.Machine
end

