-- ==== Sys2Proof/Machine/Operands.lean ====
section
/-! DEFINITION. How a text operand becomes a number and back (30_encoding.md R102 to R108), the bit permutations of
R104, R105, and the bit selection of 41_encoder_families.md R150. `none` is `MalformedHex` or `MalformedData`. -/

namespace Sys2Proof.Machine

/-! ## Texts -/

/-- `strip(s)`: every space removed (R102). -/
def strip (s : Text) : Text := s.filter (fun c => c ≠ ' ')

/-- Leading and trailing spaces removed (R97). -/
def trim (s : Text) : Text := ((s.dropWhile (· = ' ')).reverse.dropWhile (· = ' ')).reverse

/-- The rest of `line` after the prefix `pre`, if it begins with it. -/
def afterPrefix : (pre line : Text) → Option Text
  | [], line => some line
  | _ :: _, [] => none
  | p :: pre, c :: line => if p = c then afterPrefix pre line else none

/-- The lines of a text: what stands between line breaks, the break (LF, and a CR before it) removed; characters
after the last break are a line of their own (46_session.md R282; log 15). `acc` is the open line, reversed. -/
def linesFrom : (acc : Text) → Text → List Text
  | [], [] => []
  | acc, [] => [acc.reverse]
  | acc, c :: rest =>
    if c = '\n' then
      (match acc with
        | '\r' :: acc' => acc'.reverse
        | _ => acc.reverse) :: linesFrom [] rest
    else linesFrom (c :: acc) rest

/-- The lines of a text (R282). -/
def linesOf (t : Text) : List Text := linesFrom [] t

/-! ## Numerals -/

/-- The value of a hexadecimal digit of either case (R102). -/
def hexDigit (c : Char) : Option Nat :=
  if '0' ≤ c ∧ c ≤ '9' then some (c.toNat - 48)
  else if 'a' ≤ c ∧ c ≤ 'f' then some (c.toNat - 87)
  else if 'A' ≤ c ∧ c ≤ 'F' then some (c.toNat - 55)
  else none

/-- The digits of a text, none if one of its characters is no hex digit. -/
def hexDigits : Text → Option (List Nat)
  | [] => some []
  | c :: cs =>
    match hexDigit c, hexDigits cs with
    | some d, some ds => some (d :: ds)
    | _, _ => none

/-- The base-16 numeral of a digit list, first digit most significant (R64, R102). -/
def hexNumeral (ds : List Nat) : Nat := ds.foldl (fun acc d => 16 * acc + d) 0

/-- The stripped text as hex digits; empty or not hex is `MalformedHex` (R102). -/
def hexField (s : Text) : Option (List Nat) :=
  match strip s with
  | [] => none
  | c :: cs => hexDigits (c :: cs)

/-- `hexval(s)` (R102). -/
def hexval (s : Text) : Option Nat := (hexField s).map hexNumeral

/-- `ndigits(s)` (R102). -/
def ndigits (s : Text) : Nat := (strip s).length

/-- `first_byte(s)`: the numeral of the first two characters of the stripped text (R103). -/
def firstByte (s : Text) : Option Nat := (hexField s).map (fun ds => hexNumeral (ds.take 2))

/-- `hex32(s)`: at most eight digits (R104). -/
def hex32 (s : Text) : Option Nat := if ndigits s > 8 then none else hexval s

/-- A text cut at the first pair of zeros. -/
def cutAtZeros : Text → Text
  | [] => []
  | [c] => [c]
  | c :: d :: rest => if c = '0' ∧ d = '0' then [] else c :: cutAtZeros (d :: rest)

/-- `trunc00(s)`: cut at the first pair of zeros at offset 2 or later (R106). -/
def trunc00 (s : Text) : Text := s.take 2 ++ cutAtZeros (s.drop 2)

/-- A decimal natural number: digits only, at least one (R97, R107). -/
def decimalValue (t : Text) : Option Nat :=
  match t with
  | [] => none
  | c :: cs => if (c :: cs).all Char.isDigit then some (Nat.ofDigitChars 10 (c :: cs) 0) else none

/-- The tokens of a text, split at runs of spaces (R107). `acc` is the open token, reversed. -/
def tokensFrom : (acc : Text) → Text → List Text
  | [], [] => []
  | acc, [] => [acc.reverse]
  | acc, c :: rest =>
    if c = ' ' then
      match acc with
      | [] => tokensFrom [] rest
      | a :: acc' => (a :: acc').reverse :: tokensFrom [] rest
    else tokensFrom (c :: acc) rest

/-- The tokens of a text (R107). -/
def tokens (s : Text) : List Text := tokensFrom [] s

/-- The values of all tokens, none if one is no decimal numeral. -/
def decimalValues : List Text → Option (List Nat)
  | [] => some []
  | t :: ts =>
    match decimalValue t, decimalValues ts with
    | some v, some vs => some (v :: vs)
    | _, _ => none

/-- `durations(s)` (R107). -/
def durations (s : Text) : Option (List Nat) := decimalValues (tokens s)

/-- The decimal numeral of a number, no leading zeros (R108). -/
def decimal (n : Nat) : Text := Nat.toDigits 10 n

/-- `render(seq)`: numerals with one space between (R108). -/
def render : List Nat → Text
  | [] => []
  | [d] => decimal d
  | d :: e :: rest => decimal d ++ ' ' :: render (e :: rest)

/-! ## Permutations of bits (R104, R105) -/

/-- `bswap16(v)` (R104). -/
def bswap16 (v : Nat) : Nat := ((v % 2 ^ 16) >>> 8) ||| ((v % 2 ^ 8) <<< 8)

/-- `bswap32(v)`: the four bytes in opposite order (R104). -/
def bswap32 (v : Nat) : Nat :=
  ((v % 2 ^ 8) <<< 24) ||| (((v >>> 8) % 2 ^ 8) <<< 16) ||| (((v >>> 16) % 2 ^ 8) <<< 8) ||| ((v >>> 24) % 2 ^ 8)

/-- `bitrev_N(v)`: bit `N-1-k` of the result is bit `k` of `v` (R105). -/
def bitrev : (n : Nat) → (v : Nat) → Nat
  | 0, _ => 0
  | n + 1, v => ((v % 2) <<< n) ||| bitrev n (v / 2)

/-- The bit of `data` whose place in order of transmission is `i`: `data[i]` or `data[nbits-1-i]` (R65, R150). -/
def bitPlace (o : BitOrder) (nbits i : Nat) : Nat :=
  match o with
  | .lsbFirst => i
  | .msbFirst => nbits - 1 - i

/-- `bit(P, data, nbits, i)` (R150). -/
def sentBit (o : BitOrder) (data nbits i : Nat) : Bool := data.testBit (bitPlace o nbits i)

/-! ## Symbol records and batches (R93, R94) -/

/-- `lvl(pol)` (43_transmit.md R202). -/
def levelOf : Polarity → Bool
  | .mark => true
  | .space => false

/-- `pol(level)` (R94). -/
def polOf : Bool → Polarity
  | true => .mark
  | false => .space

/-- The other polarity. -/
def opposite : Polarity → Polarity
  | .mark => .space
  | .space => .mark

/-- `runs_of(s)`: the runs of a sequence, marks at even indexes; `p` is the polarity of the first (R92). -/
def runsFrom (p : Polarity) : List Nat → List Run
  | [] => []
  | d :: rest => { pol := p, dur := d } :: runsFrom (opposite p) rest

/-- `runs_of(s)` (R92). -/
def runsOf (q : List Nat) : List Run := runsFrom .mark q

/-- The (level, duration) pairs of symbol records, in order (R93). -/
def pairsOf (syms : List Symbol) : List (Bool × Nat) :=
  syms.flatMap (fun y => [(y.level0, y.duration0.toNat), (y.level1, y.duration1.toNat)])

/-- `runs_of_batch(b)` (R94). -/
def runsOfBatch (b : RawBatch) : List Run := (pairsOf b.symbols).map (fun p => { pol := polOf p.1, dur := p.2 })

/-- The packed form `level1 || duration1 || level0 || duration0`, 34 bits (R93). -/
def packedSymbol (y : Symbol) : BitVec 34 :=
  BitVec.ofBool y.level1 ++ y.duration1 ++ BitVec.ofBool y.level0 ++ y.duration0

/-- The nominal air time of a sequence in microseconds (70_reset_and_hazards.md R360). -/
def airTime (q : List Nat) : Nat := q.sum

end Sys2Proof.Machine
end

