-- ==== Sys2Proof/Machine/Ops.lean ====
section
/-! DEFINITION. The shared operations: how an operation starts and ends (60_exceptions.md R300, R306, R309, R315), the
draws of `ENV`, the external storage, and the callback in interrupt context (R311). -/

namespace Sys2Proof.Machine

/-- The outcome of a step. -/
abbrev Answer := Host.Outcome State Fault Refusal

/-- How an operation ended: its result code, the state with all its other writes, and the value it returns. -/
structure Ended where
  code : ResultCode
  st : State
  value : Value := .none
deriving DecidableEq, Repr

/-! ## Entry and end of an operation (R309, R315) -/

/-- The end of an operation: `RESULT` takes the code and the value goes to the host (R301, R315). -/
def finish (e : Ended) : State := { e.st with result := e.code, value := e.value }

/-- A raised failure: the operation ends with the code and writes nothing more (00_scope.md R8, R315). -/
def raise (c : ResultCode) (s : State) : Ended := { code := c, st := s }

/-- Plain success with nothing returned. -/
def done (s : State) : Ended := { code := .ok, st := s }

/-- A fault: `FAULT` is set, the code is `F_HW_ALLOC`, and every operation in progress ends at once (R306). -/
def enterFault (s : State) : Ended := { code := .fHwAlloc, st := { s with fault := true } }

/-- Whether an ended operation is a fault (R300). -/
def Ended.faulted (e : Ended) : Bool := decide (resultKind e.code = .fault)

/-- Whether an ended operation is a failure (R300). -/
def Ended.failed (e : Ended) : Bool := decide (resultKind e.code = .failure)

/-- One host operation: a faulted block refuses it with `F_FAULTED` (R309), else its body runs to its end. -/
def operate (body : State → Ended) (s : State) : State :=
  if s.fault then finish (raise .fFaulted s) else finish (body s)

/-- A host operation as a step. -/
def issue (body : State → Ended) (s : State) : Answer := .next (operate body s)

/-- A reserved selector: `E_NOT_SUPPORTED`, no other effect (30_encoding.md R109). -/
def reservedOp (s : State) : Answer := issue (raise .eNotSupported) s

/-! ## Draws (00_scope.md R8; log 4) -/

/-- The next answer of a script, or the free value at index `n`: the answer, the rest of the script, the new index. -/
def nextAnswer {α : Type} (script : List α) (free : Nat → α) (n : Nat) : α × List α × Nat :=
  match script with
  | a :: rest => (a, rest, n)
  | [] => (free n, [], n + 1)

/-- `draw alloc_ok` (43_transmit.md R200, 44_receive.md R220). -/
def drawAlloc (s : State) : Bool × State :=
  let d := nextAnswer s.env.allocs Config.allocOk s.env.drawn
  (d.1, { s with env := { s.env with allocs := d.2.1, drawn := d.2.2 } })

/-- Whether a finite `MAXWAIT` elapses first (43_transmit.md R207). -/
def drawWait (s : State) : Bool × State :=
  let d := nextAnswer s.env.waits Config.waitExpires s.env.drawn
  (d.1, { s with env := { s.env with waits := d.2.1, drawn := d.2.2 } })

/-- Whether the engine completes the frame in flight before the pin is driven low (43_transmit.md R204). -/
def drawEngine (s : State) : Bool × State :=
  let d := nextAnswer s.env.engine Config.engineCompletes s.env.drawn
  (d.1, { s with env := { s.env with engine := d.2.1, drawn := d.2.2 } })

/-- How many pairs the engine has begun to play when the wait elapses (43_transmit.md R203, R207). -/
def drawPlays (s : State) : Nat × State :=
  let d := nextAnswer s.env.plays Config.pairsPlayed s.env.drawn
  (d.1, { s with env := { s.env with plays := d.2.1, drawn := d.2.2 } })

/-- Whether `STORE` succeeds (46_session.md R282). -/
def drawStore (s : State) : Bool × State :=
  let d := nextAnswer s.env.stores Config.storeOk s.env.drawn
  (d.1, { s with env := { s.env with stores := d.2.1, drawn := d.2.2 } })

/-- What opening a file gives: none, or a text (46_session.md R282). -/
def drawRead (s : State) : Option Text × State :=
  let d := nextAnswer s.env.reads Config.readAnswer s.env.drawn
  (d.1, { s with env := { s.env with reads := d.2.1, drawn := d.2.2 } })

/-- The samples of the operator's inputs at one record boundary (46_session.md R279). -/
def drawBoundary (s : State) : List InputFlags × State :=
  let d := nextAnswer s.env.boundaries Config.boundarySamples s.env.drawn
  (d.1, { s with env := { s.env with boundaries := d.2.1, drawn := d.2.2 } })

/-- What `promptChoice` answers (00_scope.md R12). -/
def drawChoice (s : State) : Nat × State :=
  let d := nextAnswer s.env.choices Config.chosenEntry s.env.drawn
  (d.1, { s with env := { s.env with choices := d.2.1, drawn := d.2.2 } })

/-- What `promptText` answers (00_scope.md R12). -/
def drawText (s : State) : Text × State :=
  let d := nextAnswer s.env.texts Config.typedText s.env.drawn
  (d.1, { s with env := { s.env with texts := d.2.1, drawn := d.2.2 } })

/-! ## Tables with strictly rising keys: the external storage and the pin modes -/

/-- A key's entry written: `some v` puts it, `none` takes it out. Keys stay strictly rising under `lt`. -/
def tablePut {κ β : Type} [DecidableEq κ] (lt : κ → κ → Bool) (k : κ) (v : Option β) : List (κ × β) → List (κ × β)
  | [] => match v with
    | some b => [(k, b)]
    | none => []
  | e :: rest =>
    if e.1 = k then
      match v with
      | some b => (k, b) :: rest
      | none => rest
    else if lt k e.1 then
      match v with
      | some b => (k, b) :: e :: rest
      | none => e :: rest
    else e :: tablePut lt k v rest

/-- Keys strictly rise under `lt`. -/
def tableWf {κ β : Type} (lt : κ → κ → Bool) : List (κ × β) → Bool
  | [] => true
  | [_] => true
  | a :: b :: rest => lt a.1 b.1 && tableWf lt (b :: rest)

/-- The order of paths: character by character, a prefix first. -/
def textLt : Text → Text → Bool
  | [], [] => false
  | [], _ :: _ => true
  | _ :: _, [] => false
  | a :: as, b :: bs => if a = b then textLt as bs else decide (a.toNat < b.toNat)

/-- The canonical form of the storage: one entry a path, paths rising (log 14). -/
def storageWf (st : List (Text × Text)) : Bool := tableWf textLt st

/-- The canonical form of the pin modes. -/
def pinModesWf (p : List (Nat × Nat)) : Bool := tableWf (fun a b => decide (a < b)) p

/-- A file's text known (`some`) or unknown (`none`) from now on (R282). -/
def storagePut (path : Text) (content : Option Text) (st : List (Text × Text)) : List (Text × Text) :=
  tablePut textLt path content st

/-- `STORE(path, text)`: the text is handed over (00_scope.md R11) and the answer drawn; when true the file holds the
text, when false its content is unknown (46_session.md R274, R282). -/
def store (path text : Text) (s : State) : Bool × State :=
  let d := drawStore s
  (d.1, { d.2 with
    storage := storagePut path (if d.1 then some text else none) d.2.storage
    handed := d.2.handed ++ [{ path := path, text := text }] })

/-- `LINES(path)`: none when the file cannot be opened; else the lines of its text, the known text if there is one,
else the drawn one (R282). -/
def readLines (path : Text) (s : State) : Option (List Text) × State :=
  let d := drawRead s
  (match d.1 with
    | none => none
    | some t => some (linesOf ((d.2.storage.lookup path).getD t)), d.2)

/-! ## Interrupt context (R311, R316, R317) -/

/-- `ISR_CALLBACK(b)`: the non-blocking queue send; a full queue drops the batch (R311, R316). It exists from RX.INIT
to RX.DEINIT. -/
def isrCallback (b : RawBatch) (rx : RxUnit) : RxUnit :=
  if rx.callback then
    match rx.queue with
    | .empty => { rx with queue := .full b }
    | .full _ | .absent => rx
  else rx

/-- `MemWrite(space, 0, n, v)` on a buffer whose written entries are `buf` (20_memory.md R60). -/
def writeFront (v buf : List Symbol) : List Symbol := v ++ buf.drop v.length

end Sys2Proof.Machine
end

