-- ==== Sys2Proof/Machine/Primitives.lean ====
section
/-! DEFINITION. The timing-sequence primitives (40_primitives.md R130 to R132) and their two operations. -/

namespace Sys2Proof.Machine

/-- The chunks of one pulse: full chunks of 65535 first, the remainder last, none of length 0 (R130). -/
def chunks (p : Polarity) (d : Nat) : List Run :=
  List.replicate (d / Config.durMax) { pol := p, dur := Config.durMax }
    ++ (if d % Config.durMax = 0 then [] else [{ pol := p, dur := d % Config.durMax }])

/-- `APPENDRUN(runs, pol, d)` (R130). -/
def appendRun (runs : List Run) (p : Polarity) (d : Nat) : List Run := runs ++ chunks p d

/-- One turn of COALESCE's loop on the entries so far, the last entry first (R131): a zero run and a leading idle run
are dropped, an equal polarity is a capped merge, anything else a new capped entry. -/
def coalesceStep (out : List Run) (r : Run) : List Run :=
  if r.dur = 0 then out
  else
    match out with
    | [] =>
      match r.pol with
      | .space => []
      | .mark => [{ pol := .mark, dur := min Config.durMax r.dur }]
    | last :: before =>
      if last.pol = r.pol then { pol := last.pol, dur := min Config.durMax (last.dur + r.dur) } :: before
      else { pol := r.pol, dur := min Config.durMax r.dur } :: last :: before

/-- A sequence of odd length gets the 1 microsecond pad (R131, R68). -/
def padSeq (q : List Nat) : TimingSeq := if q.length % 2 = 1 then q ++ [Config.padSpace] else q

/-- `COALESCE(runs)` (R131), the one definition every builder and the normalizer call (R132). -/
def coalesce (runs : List Run) : TimingSeq := padSeq ((runs.foldl coalesceStep []).reverse.map (·.dur))

/-- PRIM.APPENDRUN (R130): the run list goes to the host as the operation's value. -/
def execPrimAppendrun (s : State) : Answer :=
  issue (fun s => { code := .ok, st := s, value := .runs (appendRun s.args.runs s.args.pol s.args.dur) }) s

/-- PRIM.COALESCE (R131). -/
def execPrimCoalesce (s : State) : Answer :=
  issue (fun s => done { s with seq := coalesce s.args.runs }) s

end Sys2Proof.Machine
end

