-- ==== Sys2Proof/Machine/Receive.lean ====
section
/-! DEFINITION. The receive driver and the capture engine (44_receive.md R220 to R232). -/

namespace Sys2Proof.Machine

/-! ## The driver -/

/-- `RX_INIT(…)`: a second call is a no-op; allocation is drawn; then queue, callback and first request (R220). -/
def rxInit (c : RxConfig) (s : State) : Ended :=
  if s.rx.state ≠ .uninit then done s
  else
    let d := drawAlloc s
    if d.1 then
      done { d.2 with rx := { d.2.rx with state := .armed, cfg := some c, queue := .empty, callback := true } }
    else enterFault d.2

/-- The queue emptied, where it exists. -/
def emptyQueue : Queue → Queue
  | .absent => .absent
  | .empty | .full _ => .empty

/-- `RX_POLL()`: destructive, non-blocking read of the queue (R227). -/
def rxPoll (s : State) : Ended :=
  if s.rx.state = .uninit then raise .eNotInit s
  else
    match s.rx.queue with
    | .full b => { code := .ok, st := { s with rx := { s.rx with queue := .empty } }, value := .batch b }
    | .empty | .absent => done s

/-- `RX_REARM()`: refused while a batch is pending or the channel is armed (R228). -/
def rxRearm (s : State) : Ended :=
  if s.rx.state = .uninit then raise .eNotInit s
  else if qFull s.rx then raise .eBackpressure s
  else if s.rx.state = .armed then raise .eBadState s
  else done { s with rx := { s.rx with state := .armed } }

/-- `RX_DRAIN()`: the pending batch is lost; no rearm (R229). -/
def rxDrain (s : State) : Ended :=
  if s.rx.state = .uninit then raise .eNotInit s
  else done { s with rx := { s.rx with queue := emptyQueue s.rx.queue } }

/-- `RX_RESTART()`: drain, then arm (R230). -/
def rxRestart (s : State) : Ended :=
  if s.rx.state = .uninit then raise .eNotInit s
  else done { s with rx := { s.rx with queue := emptyQueue s.rx.queue, state := .armed } }

/-- `RX_DEINIT()`: channel, queue and callback freed; a no-op when never initialized (R231). -/
def rxDeinit (s : State) : Ended :=
  if s.rx.state = .uninit then done s
  else done { s with rx := { s.rx with state := .uninit, cfg := none, queue := .absent, callback := false } }

/-! ## The capture engine (R226, R232) -/

/-- `RXENG_COMPLETE(b)`: `RXBUF` written, no request outstanding, then the callback (R226). That nothing else changes
`RXBUF`, so that its entries stay until the next capture completes, is a DESIGN CHOICE (log 34): the spec leaves its
content between captures open (20_memory.md R76, 93_implementation_defined.md 1.3), and no operation reads it. -/
def rxCapture (b : RawBatch) (rx : RxUnit) : RxUnit :=
  isrCallback b { rx with buf := writeFront b.symbols rx.buf, state := .idle }

/-- The step of `RXENG`: enabled only while armed and not faulted, and only for a batch R232 admits (R232, R309). -/
def rxComplete (b : RawBatch) (s : State) : State :=
  if s.rx.state = .armed ∧ s.fault = false ∧ b.wf = true then { s with rx := rxCapture b s.rx } else s

/-! ## The reference capture (R221 to R225) -/

/-- The logical level of an interval: `activeLow` inverts (R221). -/
def logicalLevel (activeLow : Bool) (i : Interval) : Bool × Nat := (i.high != activeLow, i.ns)

/-- The glitch filter: an interval shorter than `minNs` takes the level before it; `before` starts as idle (R223). -/
def deglitch (minNs : Nat) : (before : Bool) → List (Bool × Nat) → List (Bool × Nat)
  | _, [] => []
  | before, (l, ns) :: rest =>
    let l' := if ns < minNs then before else l
    (l', ns) :: deglitch minNs l' rest

/-- Neighbouring intervals of one level joined by adding their lengths (R223). -/
def joinLevels : List (Bool × Nat) → List (Bool × Nat)
  | [] => []
  | (l, ns) :: rest =>
    match joinLevels rest with
    | [] => [(l, ns)]
    | (l2, ns2) :: more => if l = l2 then (l, ns + ns2) :: more else (l, ns) :: (l2, ns2) :: more

/-- Nanoseconds to whole microseconds, saturating (R222). -/
def microsOf (ns : Nat) : Nat := min Config.durMax (ns / 1000)

/-- Whether an interval ends the capture (R224). -/
def endsCapture (c : RxConfig) (active : Bool) (ns : Nat) : Bool :=
  (!active && decide (c.idleThresholdNs ≤ ns)) || decide (c.maxPulseNs < ns)

/-- The recorded pairs and the truncation flag, with room for `room` more runs: the ending interval is a pair of
duration 0, the rest after the wave is an idle of unbounded length (R222, R224, R225; log 16). -/
def recordRuns (c : RxConfig) : (room : Nat) → List (Bool × Nat) → List (Bool × Nat) × Bool
  | 0, _ => ([], true)
  | _ + 1, [] => ([(false, 0)], false)
  | room + 1, (l, ns) :: rest =>
    if endsCapture c l ns then ([(l, 0)], false)
    else
      let r := recordRuns c room rest
      ((l, microsOf ns) :: r.1, r.2)

/-- Pairs put two to a symbol record, an odd last one filled with `(0, 0)` (R222, R224). -/
def symbolsOf : List (Bool × Nat) → List Symbol
  | [] => []
  | [a] => [{ duration0 := BitVec.ofNat 16 a.2, level0 := a.1, duration1 := 0, level1 := false }]
  | a :: b :: rest =>
    { duration0 := BitVec.ofNat 16 a.2, level0 := a.1, duration1 := BitVec.ofNat 16 b.2, level1 := b.1 }
      :: symbolsOf rest

/-- The batch of a waveform, none when no interval is active (R221 to R225). -/
def captureOf (c : RxConfig) (wave : List Interval) : Option RawBatch :=
  match (joinLevels (deglitch c.minPulseNs false (wave.map (logicalLevel c.activeLow)))).dropWhile (fun i => !i.1) with
  | [] => none
  | i :: rest =>
    let r := recordRuns c (Config.runsPerSymbol * Config.rxSymbols) (i :: rest)
    some { symbols := symbolsOf r.1, truncated := r.2 }

/-- A waveform on the receive pin: the reference capture of it completes, if there is one (R221, R226). -/
def rxWave (wave : List Interval) (s : State) : State :=
  match s.rx.cfg with
  | none => s
  | some c =>
    match captureOf c wave with
    | none => s
    | some b => rxComplete b s

/-! ## The operations -/

/-- RX.INIT (R220). -/
def execRxInit (s : State) : Answer := issue (fun s => rxInit s.args.rx s) s

/-- RX.POLL (R227). -/
def execRxPoll (s : State) : Answer := issue rxPoll s

/-- RX.REARM (R228). -/
def execRxRearm (s : State) : Answer := issue rxRearm s

/-- RX.DRAIN (R229). -/
def execRxDrain (s : State) : Answer := issue rxDrain s

/-- RX.RESTART (R230). -/
def execRxRestart (s : State) : Answer := issue rxRestart s

/-- RX.DEINIT (R231). -/
def execRxDeinit (s : State) : Answer := issue rxDeinit s

end Sys2Proof.Machine
end

