-- ==== Sys2Proof/Machine/Families.lean ====
section
/-! DEFINITION. The three encoding families (41_encoder_families.md R150 to R154) and their operations. -/

namespace Sys2Proof.Machine

/-- The header pair, if the descriptor declares one (R151). -/
def headerRuns (p : ProtocolSpec) : List Run :=
  if p.headerMark = 0 then [] else chunks .mark p.headerMark ++ chunks .space p.headerSpace

/-- The trailer mark and its optional space, if declared (R151). -/
def trailerRuns (p : ProtocolSpec) : List Run :=
  if p.trailerMark = 0 then []
  else chunks .mark p.trailerMark ++ (if p.trailerSpace = 0 then [] else chunks .space p.trailerSpace)

/-- One bit of the pulse-distance family: mark, then the space that carries the bit (R151). -/
def pdCell (p : ProtocolSpec) (b : Bool) : List Run :=
  chunks .mark (if b then p.oneMark else p.zeroMark) ++ chunks .space (if b then p.oneSpace else p.zeroSpace)

/-- One bit of the pulse-width family: the mark carries the bit, the space is `zero_space` (R152). -/
def pwCell (p : ProtocolSpec) (b : Bool) : List Run :=
  chunks .mark (if b then p.oneMark else p.zeroMark) ++ chunks .space p.zeroSpace

/-- The half-period of bit `i`, doubled at the designated index (R153). -/
def halfPeriod (p : ProtocolSpec) (i : Nat) : Nat := if p.doubleIdx = some i then 2 * p.unit else p.unit

/-- One bit of the biphase family: two half-periods, active first when the bit is the one sent active first (R153). -/
def biphaseCell (p : ProtocolSpec) (i : Nat) (b : Bool) : List Run :=
  if b = p.oneActiveFirst then chunks .mark (halfPeriod p i) ++ chunks .space (halfPeriod p i)
  else chunks .space (halfPeriod p i) ++ chunks .mark (halfPeriod p i)

/-- The runs of the bits `0 .. nbits-1` in order of transmission (R65, R150). -/
def bitRuns (cell : (i : Nat) → Bool → List Run) (o : BitOrder) (data nbits : Nat) : List Run :=
  (List.range nbits).flatMap (fun i => cell i (sentBit o data nbits i))

/-- `FAM_PD(P, data, nbits)` (R151). -/
def famPd (p : ProtocolSpec) (data nbits : Nat) : TimingSeq :=
  coalesce (headerRuns p ++ bitRuns (fun _ => pdCell p) p.bitOrder data nbits ++ trailerRuns p)

/-- `FAM_PW(P, data, nbits)` (R152). -/
def famPw (p : ProtocolSpec) (data nbits : Nat) : TimingSeq :=
  coalesce (headerRuns p ++ bitRuns (fun _ => pwCell p) p.bitOrder data nbits ++ trailerRuns p)

/-- `FAM_BIPHASE(P, data, nbits)`: no trailer (R153). -/
def famBiphase (p : ProtocolSpec) (data nbits : Nat) : TimingSeq :=
  coalesce (headerRuns p ++ bitRuns (biphaseCell p) p.bitOrder data nbits)

/-- `FAM(P, data, nbits)` (R154). -/
def fam (p : ProtocolSpec) (data nbits : Nat) : TimingSeq :=
  match p.family with
  | .pd => famPd p data nbits
  | .pw => famPw p data nbits
  | .biphase => famBiphase p data nbits

/-- FAM.PD (R151). -/
def execFamPd (s : State) : Answer :=
  issue (fun s => done { s with seq := famPd s.args.spec s.args.word s.args.nbits }) s

/-- FAM.PW (R152). -/
def execFamPw (s : State) : Answer :=
  issue (fun s => done { s with seq := famPw s.args.spec s.args.word s.args.nbits }) s

/-- FAM.BIPHASE (R153). -/
def execFamBiphase (s : State) : Answer :=
  issue (fun s => done { s with seq := famBiphase s.args.spec s.args.word s.args.nbits }) s

end Sys2Proof.Machine
end

