-- ==== Sys2Proof/Machine/Encoders.lean ====
section
/-! DEFINITION. The named protocol encoders (42_encoder_protocols.md R170 to R183), raw replay (R181) and the reader of
sequence texts (45_normalizer_decode.md R252). An encoder ends with a new `SEQ` or with a failure code and `SEQ` as it
was (R182, R183). -/

namespace Sys2Proof.Machine

/-! ## The packed words -/

/-- The NEC word: address, complement, command, complement, low byte first (R171). -/
def necWord (a c : Nat) : Nat := a ||| ((255 - a) <<< 8) ||| (c <<< 16) ||| ((255 - c) <<< 24)

/-- One 16 bit field of NEC-extended: byte-swapped, then bit-reversed (R172). -/
def necextField (v : Nat) : Nat := bitrev 16 (bswap16 (v % 2 ^ 16))

/-- The NEC-extended word: the address in the low 16 bits (R172). -/
def necextWord (a c : Nat) : Nat := necextField a ||| (necextField c <<< 16)

/-- The RC5 field bit: 1 when the command is at most 0x3F (R173). -/
def rc5Field (c : Nat) : Nat := if c ≤ 0x3F then 1 else 0

/-- The RC5 word under each layout; the toggle bit is always 0 (R173). -/
def rc5Word (l : Rc5Layout) (a c : Nat) : Nat :=
  match l with
  | .listed15 =>
    (1 <<< 14) ||| (1 <<< 13) ||| (0 <<< 12) ||| (rc5Field c <<< 11) ||| ((a % 32) <<< 6) ||| (c % 64)
  | .std14 => (1 <<< 13) ||| (rc5Field c <<< 12) ||| (0 <<< 11) ||| ((a % 32) <<< 6) ||| (c % 64)

/-- The RC6 mode 0 word: mode bits 000, toggle 0, address, command (R174). -/
def rc6Word (a c : Nat) : Nat := (0 <<< 17) ||| (0 <<< 16) ||| (a <<< 8) ||| c

/-- `field16(s)`: one byte is duplicated, 16 bits are taken directly, more is malformed (R175). -/
def field16 (s : Text) : Option Nat :=
  match hexval s with
  | none => none
  | some v =>
    if ndigits s ≤ 2 then some ((v <<< 8) ||| v)
    else if ndigits s ≤ 4 then some v
    else none

/-- The Samsung32 word (R175). -/
def samsungWord (a c : Nat) : Nat := a ||| (c <<< 16)

/-- The SIRC word of `n` bits: address field of `n - 7` bits over seven command bits, bits reversed (R176). -/
def sircWord (n a32 c32 : Nat) : Nat := bitrev n (((a32 % 2 ^ (n - 7)) <<< 7) ||| (c32 % 128))

/-- The six Kaseikyo bytes put together least significant first (R180). -/
def kaseikyoJoin (b0 b1 b2 b3 b4 b5 : Nat) : Nat :=
  b0 ||| (b1 <<< 8) ||| (b2 <<< 16) ||| (b3 <<< 24) ||| (b4 <<< 32) ||| (b5 <<< 40)

/-- The vendor-parity nibble (R180). -/
def kaseikyoParity (b0 b1 : Nat) : Nat := ((b0 ^^^ b1) % 16) ^^^ ((b0 ^^^ b1) >>> 4)

/-- The Kaseikyo word before the 48 bit reversal, for field positions `k` (R180; log 20). -/
def kaseikyoBytes (k : KaseikyoFields) (a32 c32 : Nat) : Nat :=
  let id := (a32 >>> k.idAt) % 4
  let vendor := (a32 >>> k.vendorAt) % 2 ^ 16
  let genre1 := (a32 >>> k.genre1At) % 16
  let genre2 := (a32 >>> k.genre2At) % 16
  let d := (c32 >>> k.dataAt) % 2 ^ 10
  let b0 := vendor % 256
  let b1 := vendor >>> 8
  let b2 := ((kaseikyoParity b0 b1 <<< k.parityInByte2) ||| (genre1 <<< k.genre1InByte2)) % 256
  let b3 := (((d % 16) <<< k.dataLowInByte3) ||| (genre2 <<< k.genre2InByte3)) % 256
  let b4 := ((id <<< k.idInByte4) ||| ((d >>> 4) <<< k.dataHighInByte4)) % 256
  kaseikyoJoin b0 b1 b2 b3 b4 (b2 ^^^ b3 ^^^ b4)

/-- The Kaseikyo data word (R180). -/
def kaseikyoWord (k : KaseikyoFields) (a32 c32 : Nat) : Nat := bitrev 48 (kaseikyoBytes k a32 c32)

/-! ## Operands to sequence -/

/-- The descriptor of a name in `PROTO_TABLE` (R28, R101). -/
def rowOf (p : Params) (name : Text) : Option ProtocolSpec := p.table.lookup name

/-- A builder of two text operands: the row of the protocol (else `E_NOT_SUPPORTED`, R182), then the operands (else
`E_MALFORMED_HEX`, R183), then the frame. -/
def encodeWith (p : Params) (name : Text) (addr cmd : Option Nat) (frame : ProtocolSpec → Nat → Nat → TimingSeq) :
    Except ResultCode TimingSeq :=
  match rowOf p name with
  | none => .error .eNotSupported
  | some row =>
    match addr, cmd with
    | some a, some c => .ok (frame row a c)
    | _, _ => .error .eMalformedHex

/-- `ENC_NEC()` (R171). -/
def encNec (p : Params) (x : Command) : Except ResultCode TimingSeq :=
  encodeWith p necName (firstByte x.address) (firstByte x.command) (fun row a c => famPd row (necWord a c) 32)

/-- `ENC_NECEXT()` (R172). -/
def encNecext (p : Params) (x : Command) : Except ResultCode TimingSeq :=
  encodeWith p necextName (hexval (trunc00 x.address)) (hexval (trunc00 x.command))
    (fun row a c => famPd row (necextWord a c) 32)

/-- `ENC_RC5()` (R173). -/
def encRc5 (p : Params) (x : Command) : Except ResultCode TimingSeq :=
  encodeWith p rc5Name (firstByte x.address) (firstByte x.command)
    (fun row a c => famBiphase row (rc5Word p.rc5Layout a c) (rc5Bits p.rc5Layout))

/-- `ENC_RC6()` (R174). -/
def encRc6 (p : Params) (x : Command) : Except ResultCode TimingSeq :=
  encodeWith p rc6Name (firstByte x.address) (firstByte x.command) (fun row a c => famBiphase row (rc6Word a c) 20)

/-- `ENC_SAMSUNG32()` (R175). -/
def encSamsung32 (p : Params) (x : Command) : Except ResultCode TimingSeq :=
  encodeWith p samsung32Name (field16 x.address) (field16 x.command) (fun row a c => famPd row (samsungWord a c) 32)

/-- `SIRC_BUILD(n)` for the row of a name (R176). -/
def sircBuild (p : Params) (name : Text) (n : Nat) (x : Command) : Except ResultCode TimingSeq :=
  encodeWith p name ((hex32 x.address).map bswap32) ((hex32 x.command).map bswap32)
    (fun row a c => famPw row (sircWord n a c) n)

/-- `ENC_KASEIKYO()` (R180). -/
def encKaseikyo (p : Params) (x : Command) : Except ResultCode TimingSeq :=
  encodeWith p kaseikyoName ((hex32 x.address).map bswap32) ((hex32 x.command).map bswap32)
    (fun row a c => famPd row (kaseikyoWord p.kaseikyo a c) 48)

/-- The runs of a list of durations by position, each through APPENDRUN; `pol` is the polarity of the first
(R201, R252). -/
def positionRuns (p : Polarity) : List Nat → List Run
  | [] => []
  | d :: rest => chunks p d ++ positionRuns (opposite p) rest

/-- `FROMTEXT(s)` (45_normalizer_decode.md R252). -/
def fromText (s : Text) : Except ResultCode TimingSeq :=
  match durations s with
  | none => .error .eMalformedHex
  | some v => .ok (coalesce (positionRuns .mark v))

/-- `ENC_RAW()` (R181). -/
def encRaw (x : Command) : Except ResultCode TimingSeq := fromText x.data

/-- The text `raw` -/
def rawType : Text := ['r', 'a', 'w']

/-- The text `parsed` -/
def parsedType : Text := ['p', 'a', 'r', 's', 'e', 'd']

/-- `ENC_AUTO()`: dispatch on `TYPE`, then on `PROTO`, exact case (R170). -/
def encAuto (p : Params) (x : Command) : Except ResultCode TimingSeq :=
  if x.type = rawType then encRaw x
  else if x.type ≠ parsedType then .error .eNotSupported
  else if (rowOf p x.protocol).isNone then .error .eNotSupported
  else if x.protocol = necName then encNec p x
  else if x.protocol = necextName then encNecext p x
  else if x.protocol = rc5Name then encRc5 p x
  else if x.protocol = rc6Name then encRc6 p x
  else if x.protocol = samsung32Name then encSamsung32 p x
  else if x.protocol = sircName then sircBuild p sircName 12 x
  else if x.protocol = sirc15Name then sircBuild p sirc15Name 15 x
  else if x.protocol = sirc20Name then sircBuild p sirc20Name 20 x
  else if x.protocol = kaseikyoName then encKaseikyo p x
  else .error .eNotSupported

/-- The end of an encoder: `SEQ` written on success, untouched on failure (R182, R183). -/
def writeSeq (r : Except ResultCode TimingSeq) (s : State) : Ended :=
  match r with
  | .ok q => done { s with seq := q }
  | .error c => raise c s

/-! ## The operations -/

/-- ENC.NEC (R171). -/
def execEncNec (s : State) : Answer := issue (fun s => writeSeq (encNec s.params s.cmd) s) s

/-- ENC.NECEXT (R172). -/
def execEncNecext (s : State) : Answer := issue (fun s => writeSeq (encNecext s.params s.cmd) s) s

/-- ENC.RC5 (R173). -/
def execEncRc5 (s : State) : Answer := issue (fun s => writeSeq (encRc5 s.params s.cmd) s) s

/-- ENC.RC6 (R174). -/
def execEncRc6 (s : State) : Answer := issue (fun s => writeSeq (encRc6 s.params s.cmd) s) s

/-- ENC.SAMSUNG32 (R175). -/
def execEncSamsung32 (s : State) : Answer := issue (fun s => writeSeq (encSamsung32 s.params s.cmd) s) s

/-- ENC.SIRC (R177). -/
def execEncSirc (s : State) : Answer := issue (fun s => writeSeq (sircBuild s.params sircName 12 s.cmd) s) s

/-- ENC.SIRC15 (R178). -/
def execEncSirc15 (s : State) : Answer := issue (fun s => writeSeq (sircBuild s.params sirc15Name 15 s.cmd) s) s

/-- ENC.SIRC20 (R179). -/
def execEncSirc20 (s : State) : Answer := issue (fun s => writeSeq (sircBuild s.params sirc20Name 20 s.cmd) s) s

/-- ENC.KASEIKYO (R180). -/
def execEncKaseikyo (s : State) : Answer := issue (fun s => writeSeq (encKaseikyo s.params s.cmd) s) s

/-- ENC.RAW (R181). -/
def execEncRaw (s : State) : Answer := issue (fun s => writeSeq (encRaw s.cmd) s) s

/-- ENC.AUTO (R170). -/
def execEncAuto (s : State) : Answer := issue (fun s => writeSeq (encAuto s.params s.cmd) s) s

end Sys2Proof.Machine
end

