-- ==== Sys2Proof/Machine/Transmit.lean ====
section
/-! DEFINITION. The carrier modulator, the symbol packer, the transmit engine and the transmit driver
(43_transmit.md R200 to R207). -/

namespace Sys2Proof.Machine

/-! ## Packer and modulator -/

/-- One symbol record of two runs (R202); durations are in range because the runs come from APPENDRUN. -/
def symbolOf (a b : Run) : Symbol :=
  { duration0 := BitVec.ofNat 16 a.dur, level0 := levelOf a.pol,
    duration1 := BitVec.ofNat 16 b.dur, level1 := levelOf b.pol }

/-- `PACK(runs)`: two runs a record, an odd final run padded with a 1 microsecond idle (R202). -/
def pack : List Run → List Symbol
  | [] => []
  | [a] => [symbolOf a { pol := .space, dur := Config.padSpace }]
  | a :: b :: rest => symbolOf a b :: pack rest

/-- The expansion of a sequence into atomic runs, each element through APPENDRUN, no coalescing (R201). -/
def expand (q : List Nat) : List Run := positionRuns .mark q

/-- What the output pin does while a pair of the given level is played (R203, R36). -/
def playLevel (level : Bool) : TxLevel := if level then .carrierOn else .idleLevel

/-- The physical pin: driven low, at a steady level (true is high), or carrying the carrier of a frequency and duty
whose active part is the given level (R203). -/
inductive PinDrive where
  | steady (high : Bool)
  | carrier (hz : Nat) (duty : Duty) (activeHigh : Bool)
deriving DecidableEq, Repr

/-- The physical pin under a carrier configuration: `invert` exchanges active and idle level (R203, R206). -/
def pinDrive (c : TxConfig) : TxLevel → PinDrive
  | .low => .steady false
  | .carrierOn => .carrier c.carrierHz c.duty (!c.invert)
  | .idleLevel => .steady c.invert

/-- The physical pin of a transmit side: before the first configuration the active level is high (R203). -/
def physicalPin (tx : TxUnit) : PinDrive :=
  pinDrive (tx.cfg.getD { carrierHz := 0, duty := 0, invert := false }) tx.level

/-! ## The engine -/

/-- The engine begins to play pairs of the frame, one after another, each through the modulator (R203, R204). -/
def playPairs (tx : TxUnit) (pairs : List (Bool × Nat)) : TxUnit :=
  pairs.foldl (fun u p => { u with level := playLevel p.1, played := u.played + 1 }) tx

/-- The pairs of the frame in flight that are still to be played. -/
def unplayed (tx : TxUnit) : List (Bool × Nat) := (pairsOf tx.buf).drop tx.played

/-- The engine begins to play the next pair, if one is left (R203). -/
def txPlayNext (s : State) : State := { s with tx := playPairs s.tx ((unplayed s.tx).take 1) }

/-- The rest of the frame is played, then `TXENG_COMPLETE()`: the frame goes to the trace, the pin to the idle level,
`TX_BUSY` clears (R204). -/
def txComplete (s : State) : State :=
  let tx := playPairs s.tx (unplayed s.tx)
  { s with tx := { tx with
      trace := tx.trace ++ [.frame (pairsOf tx.buf)], level := .idleLevel, busy := false, played := 0 } }

/-- The wait for a frame still in flight after a timeout, before a new send (R207; log 7). -/
def txDrain (s : State) : State := if s.tx.busy then txComplete s else s

/-- `DRIVE_LOW()`: emitter off (R205, R206). -/
def driveLow (s : State) : State :=
  { s with tx := { s.tx with level := .low, trace := s.tx.trace ++ [.pinLow] } }

/-- What the engine may do with a frame in flight before the host's next write to the pin: complete it, or not yet. It
is always enabled while `TX_BUSY` (R204; log 6). -/
def txMayComplete (s : State) : State :=
  if s.tx.busy then
    let d := drawEngine s
    if d.1 then txComplete d.2 else d.2
  else s

/-- The end of a command send: the engine's chance, then `DRIVE_LOW()` (R204 to R206). -/
def emitterOff (s : State) : State := driveLow (txMayComplete s)

/-! ## The driver -/

/-- The carrier configured only when it differs from the last configuration (R200). -/
def txConfigure (c : TxConfig) (s : State) : State :=
  if s.tx.cfg = some c then s
  else { s with tx := { s.tx with cfg := some c, trace := s.tx.trace ++ [.config c] } }

/-- `TX_ENSURE(carrierHz, duty, invert)`: allocate once, configure by difference (R200). -/
def txEnsure (c : TxConfig) (s : State) : Ended :=
  if s.tx.alloc then done (txConfigure c s)
  else
    let d := drawAlloc s
    if d.1 then done (txConfigure c { d.2 with tx := { d.2.tx with alloc := true } })
    else enterFault d.2

/-- The request and the wait: `TXBUF` written, `TX_BUSY` set, then completion, or the expiry of a finite `MAXWAIT`
with the frame still in flight, some of its pairs played (R201, R203, R204, R207). -/
def txRequest (syms : List Symbol) (s : State) : Ended :=
  let s1 := { s with tx := { s.tx with buf := syms, busy := true, played := 0 } }
  match s.maxWait with
  | none => done (txComplete s1)
  | some _ =>
    let d := drawWait s1
    if d.1 then
      let n := drawPlays d.2
      raise .eTimeout { n.2 with tx := playPairs n.2.tx ((unplayed n.2.tx).take n.1) }
    else done (txComplete d.2)

/-- `TX_SEND(seq, carrierHz, duty, invert)` (R201). -/
def txSend (q : List Nat) (c : TxConfig) (s : State) : Ended :=
  match q with
  | [] => raise .eEmptySeq s
  | _ :: _ =>
    let e := txEnsure c (txDrain s)
    if e.faulted then e else txRequest (pack (expand q)) e.st

/-- The repeat loop, `n` invocations left, with the first failure so far: identical arguments each time, a fault stops
at once, the emitter goes off after the last (R205). -/
def sendLoop (q : List Nat) (c : TxConfig) : (n : Nat) → (first : Option ResultCode) → State → Ended
  | 0, first, s =>
    match first with
    | none => done (emitterOff s)
    | some f => raise f (emitterOff s)
  | n + 1, first, s =>
    let e := txSend q c s
    if e.faulted then e
    else sendLoop q c n (if e.failed && first.isNone then some e.code else first) e.st

/-- The carrier of a command: a raw record's own frequency or the default, and the default duty; else the row's
(R181, R205). -/
def carrierOf (p : Params) (x : Command) : TxConfig :=
  if x.type = rawType then
    { carrierHz := if x.frequency ≠ 0 then x.frequency else p.rawDefaultFreq, duty := p.defaultDuty, invert := false }
  else
    match rowOf p x.protocol with
    | some row => { carrierHz := row.carrierHz, duty := row.duty, invert := false }
    | none => { carrierHz := p.rawDefaultFreq, duty := p.defaultDuty, invert := false }

/-- `TX_SENDCMD()`: the encoder, then `REPEAT + 1` invocations; when the encoder fails, none (R205). -/
def txSendcmd (s : State) : Ended :=
  match encAuto s.params s.cmd with
  | .error c => raise c (emitterOff s)
  | .ok q => sendLoop q (carrierOf s.params s.cmd) (s.repeats + 1) none { s with seq := q }

/-! ## The operations -/

/-- The carrier arguments of TX.ENSURE and TX.SEND. -/
def argCarrier (a : Args) : TxConfig := { carrierHz := a.carrierHz, duty := a.duty, invert := a.invert }

/-- TX.ENSURE (R200). -/
def execTxEnsure (s : State) : Answer := issue (fun s => txEnsure (argCarrier s.args) s) s

/-- TX.SEND (R201): the sequence from outside, or `SEQ` when none is given (log 13). -/
def execTxSend (s : State) : Answer :=
  issue (fun s => txSend (s.args.seq.getD s.seq) (argCarrier s.args) s) s

/-- TX.SENDCMD (R205). -/
def execTxSendcmd (s : State) : Answer := issue txSendcmd s

end Sys2Proof.Machine
end

