-- ==== Sys2Proof/Machine/Agents.lean ====
section
/-! DEFINITION. The steps of the agents besides an operation itself (00_scope.md R10, R12): the host's writes and polls,
the engines, and the environment; and the command port (30_encoding.md R99). -/

namespace Sys2Proof.Machine

/-- The step of `TXENG`: enabled only while `TX_BUSY` and not faulted (43_transmit.md R204, 60_exceptions.md R309). -/
def txEngine (s : State) : State := if s.tx.busy = true ∧ s.fault = false then txComplete s else s

/-- The step of `TXENG` inside a frame: the next pair is played (R203, R204, R309). -/
def txPlay (s : State) : State := if s.tx.busy = true ∧ s.fault = false then txPlayNext s else s

/-- The host writes `SEQ` (70_reset_and_hazards.md R342), which holds one timing sequence (10_state.md R21; log 31). -/
def writeHostSeq (q : List Nat) (s : State) : State := if TimingSeq.wf q then { s with seq := q } else s

/-- `promptChoice(…)`: the answer is a draw (R12; log 32). -/
def promptChoice (_labels : List Text) (s : State) : State :=
  let d := drawChoice s
  { d.2 with value := .chosen d.1 }

/-- `promptText(title, maxLen, initial)`: the answer is a draw (R12; log 32). -/
def promptText (_title : Text) (_maxLen : Nat) (_initial : Text) (s : State) : State :=
  let d := drawText s
  { d.2 with value := .text d.1 }

/-- The host's poll of an input flag: the value is returned and the flag cleared, in one step (R313). -/
def pollFlag (n : InputName) (s : State) : State :=
  let r := readAndClear n s.flags
  { s with flags := r.2, value := .flag r.1 }

/-- `configurePin(pinNumber, mode)` (R12, R27). -/
def setPinMode (pin mode : Nat) (p : List (Nat × Nat)) : List (Nat × Nat) :=
  tablePut (fun a b => decide (a < b)) pin (some mode) p

/-- What one event of the agenda does. -/
def perform (e : Event) (s : State) : State :=
  match e with
  | .hostOp op => { s with port := some op }
  | .hostCommand c => { s with cmd := c }
  | .hostArgs a => { s with args := a }
  | .hostSeq q => writeHostSeq q s
  | .hostRepeat n => { s with repeats := n }
  | .hostMaxWait m => { s with maxWait := m }
  | .hostPoll n => pollFlag n s
  | .hostShow what => { s with shown := s.shown ++ [what] }
  | .hostChoice labels => promptChoice labels s
  | .hostText title maxLen initial => promptText title maxLen initial s
  | .configurePin pin mode => { s with pinModes := setPinMode pin mode s.pinModes }
  | .txPlay => txPlay s
  | .txComplete => txEngine s
  | .rxBatch b => rxComplete b s
  | .rxWave w => rxWave w s
  | .input f => { s with flags := setFlags s.flags f }
  | .file path content => { s with storage := storagePut path content s.storage }

/-- The selector waiting at the command port, and the state with the port empty (R99). -/
def takeSelector (s : State) : Option (OpByte × State) :=
  match s.port with
  | some op => some (op, { s with port := none })
  | none => none

/-- A step in which no operation runs: the next event of the agenda, or nothing while the block waits for the host
(70_reset_and_hazards.md R340). -/
def agentStep (s : State) : State :=
  match s.agenda with
  | [] => s
  | e :: rest => perform e { s with agenda := rest }

end Sys2Proof.Machine
end

