-- ==== Sys2Proof/Machine/Decoder.lean ====
section
/-! DEFINITION. The capture normalizer, the sequence text operations and the protocol decode state machine
(45_normalizer_decode.md R250 to R258). -/

namespace Sys2Proof.Machine

/-! ## Normalizer (R250) -/

/-- `NORM(b)`'s sequence: each run through APPENDRUN, then COALESCE (R250). -/
def normalizeBatch (b : RawBatch) : TimingSeq := coalesce ((runsOfBatch b).flatMap (fun r => chunks r.pol r.dur))

/-! ## Decoder cells (R254 to R256) -/

/-- `near(m, n)`: measured `m` within `tol` percent of nominal `n` (R254). -/
def near (tol m n : Nat) : Bool := decide (100 * ((m - n) + (n - m)) ≤ tol * n)

/-- A mark and the space after it, near their nominal values; the last space of the sequence is never compared
(R254, R255). -/
def cellNear (tol mark space : Nat) (m s : Nat) (rest : List Nat) : Bool :=
  near tol m mark && (rest.isEmpty || near tol s space)

/-- State `HDR`: the rest of the sequence after the header, none on FAIL (R255). -/
def readHeader (tol : Nat) (p : ProtocolSpec) (q : List Nat) : Option (List Nat) :=
  if p.headerMark = 0 then some q
  else
    match q with
    | m :: s :: rest => if cellNear tol p.headerMark p.headerSpace m s rest then some rest else none
    | _ => none

/-- States `BIT(i)`, `k` bits left: the data read and the rest of the sequence, none on FAIL (R255). `oneSpace` and
`zeroSpace` are the nominal spaces of the two bits. -/
def readBits (tol : Nat) (p : ProtocolSpec) (oneSpace zeroSpace : Nat) :
    (k i : Nat) → (data : Nat) → List Nat → Option (Nat × List Nat)
  | 0, _, data, q => some (data, q)
  | k + 1, i, data, m :: s :: rest =>
    let one := cellNear tol p.oneMark oneSpace m s rest
    let zero := cellNear tol p.zeroMark zeroSpace m s rest
    if one = zero then none
    else
      readBits tol p oneSpace zeroSpace k (i + 1)
        (data ||| ((if one then 1 else 0) <<< bitPlace p.bitOrder p.nbits i)) rest
  | _ + 1, _, _, _ => none

/-- States `TRL` and `DONE`: true when the trailer is there and nothing follows (R255). -/
def readTrailer (tol : Nat) (p : ProtocolSpec) (q : List Nat) : Bool :=
  if p.trailerMark = 0 then q.isEmpty
  else
    match q with
    | [m, _] => near tol m p.trailerMark
    | _ => false

/-- The walk `HDR`, `BIT(i)`, `TRL`, `DONE` (R255). -/
def readFrame (tol : Nat) (p : ProtocolSpec) (oneSpace zeroSpace : Nat) (q : List Nat) : Option Nat :=
  match readHeader tol p q with
  | none => none
  | some q1 =>
    match readBits tol p oneSpace zeroSpace p.nbits 0 0 q1 with
    | none => none
    | some (data, q2) => if readTrailer tol p q2 then some data else none

/-- `DEC_PD(P, q)` (R255). -/
def decPd (tol : Nat) (p : ProtocolSpec) (q : List Nat) : Option Nat := readFrame tol p p.oneSpace p.zeroSpace q

/-- `DEC_PW(P, q)`: the space of both bits is `zero_space` (R256). -/
def decPw (tol : Nat) (p : ProtocolSpec) (q : List Nat) : Option Nat := readFrame tol p p.zeroSpace p.zeroSpace q

/-! ## The biphase decoder (R257) -/

/-- `level2(q, t2)`: the level at time `t2 / 2`; `pol` is the polarity of the first element (R257). -/
def level2From : (pol : Polarity) → List Nat → (t2 : Nat) → Polarity
  | _, [], _ => .space
  | .mark, d :: rest, t2 => if t2 < 2 * d then .mark else level2From .space rest (t2 - 2 * d)
  | .space, d :: rest, t2 => if t2 < 2 * d then .space else level2From .mark rest (t2 - 2 * d)

/-- `level2(q, t2)` (R257). -/
def level2 (q : List Nat) (t2 : Nat) : Polarity := level2From .mark q t2

/-- Every mark of the sequence begins before time `t`; `cum` is the time of the first element (R257). -/
def marksBefore (t : Nat) : (pol : Polarity) → (cum : Nat) → List Nat → Bool
  | _, _, [] => true
  | .mark, cum, d :: rest => decide (cum < t) && marksBefore t .space (cum + d) rest
  | .space, cum, d :: rest => marksBefore t .mark (cum + d) rest

/-- The start of bit 0: the measured header mark and the nominal header space (R257). -/
def biphaseStart (tol : Nat) (p : ProtocolSpec) (q : List Nat) : Option Nat :=
  if p.headerMark = 0 then some 0
  else
    match q with
    | m :: _ => if near tol m p.headerMark then some (m + p.headerSpace) else none
    | [] => none

/-- States `BIT(i)`, `k` bits left, sampling the middle of each half-period: the data and the end of the last bit
(R257). -/
def sampleBits (p : ProtocolSpec) (q : List Nat) : (k i t data : Nat) → Option (Nat × Nat)
  | 0, _, t, data => some (data, t)
  | k + 1, i, t, data =>
    let w := if p.doubleIdx = some i then 2 * p.unit else p.unit
    let h1 := level2 q (2 * t + w)
    let h2 := level2 q (2 * t + 3 * w)
    if h1 = h2 then none
    else
      let b := decide (h1 = .mark) == p.oneActiveFirst
      sampleBits p q k (i + 1) (t + 2 * w) (data ||| ((if b then 1 else 0) <<< bitPlace p.bitOrder p.nbits i))

/-- `DEC_BIPHASE(P, q)` (R257). -/
def decBiphase (tol : Nat) (p : ProtocolSpec) (q : List Nat) : Option Nat :=
  match biphaseStart tol p q with
  | none => none
  | some t0 =>
    match sampleBits p q p.nbits 0 t0 0 with
    | none => none
    | some (data, t) => if marksBefore t .mark 0 q then some data else none

/-! ## Frame checks and field recovery (R258) -/

/-- Byte `j` of a number, byte 0 least significant. -/
def byteAt (v j : Nat) : Nat := (v >>> (8 * j)) % 256

/-- `valid(name, data)` (R258). -/
def validFrame (l : Rc5Layout) (name : Text) (data : Nat) : Bool :=
  if name = necName then
    decide (byteAt data 1 = 255 - byteAt data 0 ∧ byteAt data 3 = 255 - byteAt data 2)
  else if name = rc5Name then
    match l with
    | .listed15 => data.testBit 14 && data.testBit 13
    | .std14 => data.testBit 13
  else if name = rc6Name then decide ((data >>> 17) % 8 = 0)
  else if name = kaseikyoName then
    let w := bitrev 48 data
    decide (byteAt w 5 = byteAt w 2 ^^^ byteAt w 3 ^^^ byteAt w 4)
  else true

/-- The fields of a decoded word, as numbers (R258). -/
inductive Recovered where
  | nec (address command : Nat)
  | necext (address16 command16 : Nat)
  | rc5 (toggle field address command : Nat)
  | rc6 (toggle address command : Nat)
  | samsung (address command : Nat)
  | sirc (address command : Nat)
  | kaseikyo (vendor genre1 genre2 data id : Nat)
deriving DecidableEq, Repr

/-- The recovery column of R258; Kaseikyo under the default `KASEIKYO_FIELDS`. None for a name not listed. -/
def recover (l : Rc5Layout) (name : Text) (data : Nat) : Option Recovered :=
  if name = necName then some (.nec (byteAt data 0) (byteAt data 2))
  else if name = necextName then
    some (.necext (bswap16 (bitrev 16 (data % 2 ^ 16))) (bswap16 (bitrev 16 (data >>> 16))))
  else if name = rc5Name then
    let command (field : Nat) := data % 64 + (if field = 1 then 0 else 64)
    match l with
    | .listed15 =>
      some (.rc5 ((data >>> 12) % 2) ((data >>> 11) % 2) ((data >>> 6) % 32) (command ((data >>> 11) % 2)))
    | .std14 =>
      some (.rc5 ((data >>> 11) % 2) ((data >>> 12) % 2) ((data >>> 6) % 32) (command ((data >>> 12) % 2)))
  else if name = rc6Name then some (.rc6 ((data >>> 16) % 2) (byteAt data 1) (byteAt data 0))
  else if name = samsung32Name then some (.samsung (data % 2 ^ 16) (data >>> 16))
  else if name = sircName then some (.sirc (bitrev 12 data >>> 7) (bitrev 12 data % 128))
  else if name = sirc15Name then some (.sirc (bitrev 15 data >>> 7) (bitrev 15 data % 128))
  else if name = sirc20Name then some (.sirc (bitrev 20 data >>> 7) (bitrev 20 data % 128))
  else if name = kaseikyoName then
    let w := bitrev 48 data
    some (.kaseikyo (byteAt w 0 + 256 * byteAt w 1) (byteAt w 2 >>> 4) (byteAt w 3 % 16)
      ((byteAt w 3 >>> 4) + 16 * (byteAt w 4 % 64)) (byteAt w 4 >>> 6))
  else none

/-! ## The match over the table (R253) -/

/-- The decoder of a row's family (R253). -/
def decodeRow (tol : Nat) (p : ProtocolSpec) (q : List Nat) : Option Nat :=
  match p.family with
  | .pd => decPd tol p q
  | .pw => decPw tol p q
  | .biphase => decBiphase tol p q

/-- One row tried: name, data and bit count when the row decodes and its check passes (R253). -/
def tryRow (p : Params) (q : List Nat) (row : Text × ProtocolSpec) : Option (Text × Nat × Nat) :=
  match decodeRow p.decodeTolPct row.2 q with
  | none => none
  | some data => if validFrame p.rc5Layout row.1 data then some (row.1, data, row.2.nbits) else none

/-- `DEC_MATCH()`'s search: the first row, in table order (R253). -/
def matchRows (p : Params) (q : List Nat) : Option (Text × Nat × Nat) := p.table.findSome? (tryRow p q)

/-- `DEC_MATCH()` (R253). -/
def decMatch (s : State) : Ended :=
  match s.seq with
  | [] => raise .eEmptySeq s
  | d :: ds =>
    match matchRows s.params (d :: ds) with
    | some (name, data, nbits) => { code := .ok, st := s, value := .decoded name data nbits }
    | none => raise .eNotSupported s

/-! ## The operations -/

/-- NORM (R250): the warning is the result, `SEQ` is written all the same. -/
def execNorm (s : State) : Answer :=
  issue (fun s => { code := truncCode s.args.batch, st := { s with seq := normalizeBatch s.args.batch } }) s

/-- SEQ.TOTEXT (R251). -/
def execSeqTotext (s : State) : Answer := issue (fun s => { code := .ok, st := s, value := .text (render s.seq) }) s

/-- SEQ.FROMTEXT (R252). -/
def execSeqFromtext (s : State) : Answer := issue (fun s => writeSeq (fromText s.args.text) s) s

/-- DEC.MATCH (R253). -/
def execDecMatch (s : State) : Answer := issue decMatch s

end Sys2Proof.Machine
end

