-- ==== Sys2Proof/Machine/Session.lean ====
section
/-! DEFINITION. The capture session (46_session.md R270 to R275) and the text it writes (30_encoding.md R96). -/

namespace Sys2Proof.Machine

/-! ## The texts of a commit and of the file header (R96, R272, R274); `<LF>` is the line break -/

/-- The line break: the single character LF (R272). -/
def lineBreak : Char := '\n'

/-- `name: ` -/
def commitName : Text :=
  ['n', 'a', 'm', 'e', ':', ' ']

/-- `type: raw<LF>` -/
def commitType : Text :=
  ['t', 'y', 'p', 'e', ':', ' ', 'r', 'a', 'w', '\n']

/-- `frequency: ` -/
def commitFreq : Text :=
  ['f', 'r', 'e', 'q', 'u', 'e', 'n', 'c', 'y', ':', ' ']

/-- `duty_cycle: 0.33<LF>` -/
def commitDuty : Text :=
  ['d', 'u', 't', 'y', '_', 'c', 'y', 'c', 'l', 'e', ':', ' ', '0', '.', '3', '3', '\n']

/-- `data: ` -/
def commitData : Text :=
  ['d', 'a', 't', 'a', ':', ' ']

/-- `#<LF>` -/
def recordEnd : Text :=
  ['#', '\n']

/-- `Filetype: Bruce IR File<LF>` -/
def headerFiletype : Text :=
  ['F', 'i', 'l', 'e', 't', 'y', 'p', 'e', ':', ' ', 'B', 'r', 'u', 'c', 'e', ' ', 'I', 'R', ' ', 'F', 'i', 'l',
   'e', '\n']

/-- `Version: 1<LF>` -/
def headerVersion : Text :=
  ['V', 'e', 'r', 's', 'i', 'o', 'n', ':', ' ', '1', '\n']

/-- `# ` -/
def headerDevice : Text :=
  ['#', ' ']

/-- The block of one committed signal (R272). The duty is the fixed text 0.33 (log 29). -/
def commitBlock (freq : Nat) (name last : Text) : Text :=
  commitName ++ name ++ [lineBreak] ++ commitType ++ commitFreq ++ decimal freq ++ [lineBreak] ++ commitDuty
    ++ commitData ++ last ++ [lineBreak] ++ recordEnd

/-- The text of a flushed file: the four header lines, then the pending blocks (R274). -/
def deviceFile (devname pending : Text) : Text :=
  headerFiletype ++ headerVersion ++ recordEnd ++ headerDevice ++ devname ++ [lineBreak] ++ pending

/-! ## The session -/

/-- `SES_ENTER(…)`: the receiver is started, which may fault; then an empty session (R270). -/
def sesEnter (c : RxConfig) (s : State) : Ended :=
  if s.ses.state ≠ .none then raise .eBadState s
  else
    let e := rxInit c s
    if e.faulted then e
    else done { e.st with ses := { state := .idle, count := 0, last := [], pending := [] } }

/-- RX.REARM called by a session operation: a refusal of it changes nothing and is not passed on (R316; log 9). -/
def sesRearm (s : State) : State := (rxRearm s).st

/-- `SES_CAPTURE()`: poll, normalize, hold; an empty capture is dropped and the receiver rearmed (R271). -/
def sesCapture (s : State) : Ended :=
  if s.ses.state ≠ .idle then raise .eBadState s
  else
    let e := rxPoll s
    match e.value with
    | .batch b =>
      let s1 := { e.st with seq := normalizeBatch b }
      match normalizeBatch b with
      | [] => { code := truncCode b, st := sesRearm s1 }
      | _ :: _ =>
        { code := truncCode b
          st := { s1 with ses := { s1.ses with last := render (normalizeBatch b), state := .held } } }
    | .none | .runs _ | .text _ | .decoded _ _ _ | .flag _ | .chosen _ => done s

/-- `SES_COMMIT(name)` (R272). -/
def sesCommit (name : Text) (s : State) : Ended :=
  if s.ses.state ≠ .held then raise .eBadState s
  else if lineBreak ∈ name then raise .eBadState s
  else
    let s1 := sesRearm s
    done { s1 with ses :=
      { state := .idle, count := s.ses.count + 1, last := s.ses.last,
        pending := s.ses.pending ++ commitBlock s.params.rawDefaultFreq name s.ses.last } }

/-- `SES_DISCARD()`: rearm without saving (R273). -/
def sesDiscard (s : State) : Ended :=
  if s.ses.state ≠ .held then raise .eBadState s
  else
    let s1 := sesRearm s
    done { s1 with ses := { s1.ses with state := .idle } }

/-- `SES_FLUSH(path, devname)`: on failure the session is kept (R274); a device name with a line break is refused
(93_implementation_defined.md 1.2; log 27). -/
def sesFlush (path devname : Text) (s : State) : Ended :=
  if s.ses.state ≠ .idle ∨ s.ses.count = 0 then raise .eBadState s
  else if lineBreak ∈ devname then raise .eBadState s
  else
    let d := store path (deviceFile devname s.ses.pending) s
    if d.1 then done { d.2 with ses := { d.2.ses with count := 0, pending := [] } }
    else raise .eStorage d.2

/-- `SES_EXIT()`: session and catalog emptied, receiver freed; `RECENT` keeps its copies (R275). -/
def sesExit (s : State) : Ended :=
  if s.ses.state = .none then done s
  else
    let e := rxDeinit { s with cat := [] }
    done { e.st with ses := { state := .none, count := 0, last := [], pending := [] } }

/-! ## The operations -/

/-- SES.ENTER (R270). -/
def execSesEnter (s : State) : Answer := issue (fun s => sesEnter s.args.rx s) s

/-- SES.CAPTURE (R271). -/
def execSesCapture (s : State) : Answer := issue sesCapture s

/-- SES.COMMIT (R272): the name is the `NAME` register. -/
def execSesCommit (s : State) : Answer := issue (fun s => sesCommit s.cmd.name s) s

/-- SES.DISCARD (R273). -/
def execSesDiscard (s : State) : Answer := issue sesDiscard s

/-- SES.FLUSH (R274). -/
def execSesFlush (s : State) : Answer := issue (fun s => sesFlush s.args.path s.args.devname s) s

/-- SES.EXIT (R275). -/
def execSesExit (s : State) : Answer := issue sesExit s

end Sys2Proof.Machine
end

