-- ==== Sys2Proof/Machine/Replay.lean ====
section
/-! DEFINITION. The record reader (30_encoding.md R97, R98; 46_session.md R281), the replay path (R276 to R279) and
the recent buffer (R280). -/

namespace Sys2Proof.Machine

/-! ## PARSE (R281) -/

/-- The field a key line sets (R97). -/
inductive KeyField where
  | name
  | type
  | protocol
  | address
  | command
  | frequency
  | bits
  | data
deriving DecidableEq, Repr

/-- The key prefixes and their fields; `data:`, `value:` and `state:` spell one field (R97). -/
def keyTable : List (Text × KeyField) :=
  [(['n', 'a', 'm', 'e', ':'], .name),
   (['t', 'y', 'p', 'e', ':'], .type),
   (['p', 'r', 'o', 't', 'o', 'c', 'o', 'l', ':'], .protocol),
   (['a', 'd', 'd', 'r', 'e', 's', 's', ':'], .address),
   (['c', 'o', 'm', 'm', 'a', 'n', 'd', ':'], .command),
   (['f', 'r', 'e', 'q', 'u', 'e', 'n', 'c', 'y', ':'], .frequency),
   (['b', 'i', 't', 's', ':'], .bits),
   (['d', 'a', 't', 'a', ':'], .data),
   (['v', 'a', 'l', 'u', 'e', ':'], .data),
   (['s', 't', 'a', 't', 'e', ':'], .data)]

/-- A line as a key line: the field and its value, trimmed; none when it is no key line (R97). -/
def keyLine (line : Text) : Option (KeyField × Text) :=
  keyTable.findSome? (fun k => (afterPrefix k.1 line).map (fun v => (k.2, trim v)))

/-- A field set from its value; a bad number gives the default (R97). -/
def setField (k : KeyField) (v : Text) (c : Command) : Command :=
  match k with
  | .name => { c with name := v }
  | .type => { c with type := v }
  | .protocol => { c with protocol := v }
  | .address => { c with address := v }
  | .command => { c with command := v }
  | .frequency => { c with frequency := (decimalValue v).getD 0 }
  | .bits => { c with bits := (decimalValue v).getD Config.bitsDefault }
  | .data => { c with data := v }

/-- The reader's state: the open record, whether a key line was seen, whether a name was (R98, R281). -/
structure Reader where
  cur : Command
  isOpen : Bool
  named : Bool
deriving DecidableEq, Repr

/-- The reader between records. -/
def freshReader (path : Text) : Reader := { cur := blankCommand path, isOpen := false, named := false }

/-- One key line: a second `name:` drops the open record (R98, R281). -/
def readKey (path : Text) (k : KeyField) (v : Text) (r : Reader) : Reader :=
  { cur := setField k v (if k = .name ∧ r.named = true then blankCommand path else r.cur)
    isOpen := true
    named := r.named || decide (k = .name) }

/-- `PARSE(lines, path)` from a reader state: a `#` line ends the open record, other lines that are no key line are
ignored, a record still open at the end is dropped (R98, R281). -/
def parseFrom (path : Text) : Reader → List Text → List Command
  | _, [] => []
  | r, line :: rest =>
    match line with
    | '#' :: _ =>
      if r.isOpen then r.cur :: parseFrom path (freshReader path) rest
      else parseFrom path (freshReader path) rest
    | _ =>
      match keyLine line with
      | some (k, v) => parseFrom path (readKey path k v r) rest
      | none => parseFrom path r rest

/-- `PARSE(lines, path)` (R281). -/
def parse (lines : List Text) (path : Text) : List Command := parseFrom path (freshReader path) lines

/-! ## The recent buffer (R280) -/

/-- `REC_INSERT(c)` on the buffer: a path already there changes nothing, the last entry is evicted when full (R280). -/
def recInsert (c : Command) (recents : List Command) : List Command :=
  if recents.any (fun e => decide (e.path = c.path)) then recents else (c :: recents).take Config.recentCap

/-! ## Replay (R276 to R279) -/

/-- `RPL_LOAD(path)`: at most 100 records (R276). -/
def rplLoad (path : Text) (s : State) : Ended :=
  let d := readLines path s
  match d.1 with
  | none => raise .eStorage d.2
  | some m => done { d.2 with cat := (parse m path).take Config.loadCap }

/-- `RPL_SELECT(i)`: registers loaded, command sent, recent buffer updated unless the send faulted (R277). -/
def rplSelect (i : Nat) (s : State) : Ended :=
  match s.cat[i]? with
  | none => raise .eBadState s
  | some c =>
    let e := txSendcmd { s with cmd := c }
    if e.faulted then e
    else { e with st := { e.st with recents := recInsert c e.st.recents } }

/-- How a record boundary ends (R279). -/
inductive Boundary where
  | go (s : State)
  | cancelled (s : State)
  | stuck
deriving DecidableEq, Repr

/-- `BOUNDARY()` with the samples `ENV` gives at it: each sample sets flags, then `escape` and `select` are read and
cleared; it ends unpaused or cancelled. Samples left over set their flags and wait for the next poll (R279, R313;
log 18). Paused with no sample left it does not end (log 17). -/
def boundary : List InputFlags → State → Boundary
  | samples, s =>
    match samples with
    | [] =>
      let esc := readAndClear .escape s.flags
      if esc.1 then .cancelled { s with flags := esc.2, paused := false }
      else
        let sel := readAndClear .select esc.2
        if xor sel.1 s.paused then .stuck else .go { s with flags := sel.2, paused := false }
    | f :: rest =>
      let esc := readAndClear .escape (setFlags s.flags f)
      if esc.1 then .cancelled { s with flags := rest.foldl setFlags esc.2, paused := false }
      else
        let sel := readAndClear .select esc.2
        if xor sel.1 s.paused then
          match rest with
          | [] => .stuck
          | _ :: _ => boundary rest { s with flags := sel.2, paused := true }
        else .go { s with flags := rest.foldl setFlags sel.2, paused := false }

/-- The record loop of RPL.SPAMALL; none when a boundary does not end (R278). -/
def spamLoop : List Command → State → Option Ended
  | [], s => some (done { s with paused := false })
  | c :: rest, s =>
    let d := drawBoundary s
    match boundary d.1 d.2 with
    | .stuck => none
    | .cancelled s1 => some (raise .eCancelled s1)
    | .go s1 =>
      let e := txSendcmd { s1 with cmd := c }
      if e.faulted then some e
      else spamLoop rest { e.st with recIdx := e.st.recIdx + 1 }

/-- `RPL_SPAMALL(path)`: every record in file order, no cap (R278). -/
def rplSpamall (path : Text) (s : State) : Option Ended :=
  let d := readLines path s
  match d.1 with
  | none => some (raise .eStorage d.2)
  | some m => spamLoop (parse m path) { d.2 with recIdx := 0, paused := false }

/-! ## The operations -/

/-- RPL.LOAD (R276). -/
def execRplLoad (s : State) : Answer := issue (fun s => rplLoad s.args.path s) s

/-- RPL.SELECT (R277). -/
def execRplSelect (s : State) : Answer := issue (fun s => rplSelect s.args.index s) s

/-- RPL.SPAMALL (R278): it answers a next state unless it is paused for ever (R279). -/
def execRplSpamall (s : State) : Answer :=
  if s.fault then .next (finish (raise .fFaulted s))
  else
    match rplSpamall s.args.path s with
    | some e => .next (finish e)
    | none => .fault .pausedForever

/-- REC.INSERT (R280): the command is the operand registers (log 12). -/
def execRecInsert (s : State) : Answer := issue (fun s => done { s with recents := recInsert s.cmd s.recents }) s

end Sys2Proof.Machine
end

