-- ==== Sys2Proof/Machine/Dispatch.lean ====
section
/-! DEFINITION. One arm per operation: its meaning. -/

namespace Sys2Proof.Machine

def exec (i : Instr) (s : State) : Host.Outcome State Fault Refusal :=
  match i with
  | .primAppendrun => Sys2Proof.Machine.execPrimAppendrun s
  | .primCoalesce => Sys2Proof.Machine.execPrimCoalesce s
  | .famPd => Sys2Proof.Machine.execFamPd s
  | .famPw => Sys2Proof.Machine.execFamPw s
  | .famBiphase => Sys2Proof.Machine.execFamBiphase s
  | .encNec => Sys2Proof.Machine.execEncNec s
  | .encNecext => Sys2Proof.Machine.execEncNecext s
  | .encRc5 => Sys2Proof.Machine.execEncRc5 s
  | .encRc6 => Sys2Proof.Machine.execEncRc6 s
  | .encSamsung32 => Sys2Proof.Machine.execEncSamsung32 s
  | .encSirc => Sys2Proof.Machine.execEncSirc s
  | .encSirc15 => Sys2Proof.Machine.execEncSirc15 s
  | .encSirc20 => Sys2Proof.Machine.execEncSirc20 s
  | .encKaseikyo => Sys2Proof.Machine.execEncKaseikyo s
  | .encRaw => Sys2Proof.Machine.execEncRaw s
  | .encAuto => Sys2Proof.Machine.execEncAuto s
  | .txEnsure => Sys2Proof.Machine.execTxEnsure s
  | .txSend => Sys2Proof.Machine.execTxSend s
  | .txSendcmd => Sys2Proof.Machine.execTxSendcmd s
  | .rxInit => Sys2Proof.Machine.execRxInit s
  | .rxPoll => Sys2Proof.Machine.execRxPoll s
  | .rxRearm => Sys2Proof.Machine.execRxRearm s
  | .rxDrain => Sys2Proof.Machine.execRxDrain s
  | .rxRestart => Sys2Proof.Machine.execRxRestart s
  | .rxDeinit => Sys2Proof.Machine.execRxDeinit s
  | .norm => Sys2Proof.Machine.execNorm s
  | .seqTotext => Sys2Proof.Machine.execSeqTotext s
  | .seqFromtext => Sys2Proof.Machine.execSeqFromtext s
  | .decMatch => Sys2Proof.Machine.execDecMatch s
  | .sesEnter => Sys2Proof.Machine.execSesEnter s
  | .sesCapture => Sys2Proof.Machine.execSesCapture s
  | .sesCommit => Sys2Proof.Machine.execSesCommit s
  | .sesDiscard => Sys2Proof.Machine.execSesDiscard s
  | .sesFlush => Sys2Proof.Machine.execSesFlush s
  | .sesExit => Sys2Proof.Machine.execSesExit s
  | .rplLoad => Sys2Proof.Machine.execRplLoad s
  | .rplSelect => Sys2Proof.Machine.execRplSelect s
  | .rplSpamall => Sys2Proof.Machine.execRplSpamall s
  | .recInsert => Sys2Proof.Machine.execRecInsert s

end Sys2Proof.Machine
end

