-- ==== Sys2Proof/Machine/Step.lean ====
section
/-! DEFINITION. One step of the block: the operation waiting at the command port, or else the next event of the other
agents. -/

namespace Sys2Proof.Machine

/-- The operation a selector names, run; a reserved selector answers `E_NOT_SUPPORTED` (30_encoding.md R99, R109). -/
def runSelector (op : OpByte) (s : State) : Host.Outcome State Fault Refusal :=
  match decode [op] with
  | .ok (i, _) => exec i s
  | .error _ => reservedOp s

/-- One step. The port is emptied before the operation runs. -/
def step (s : State) : Host.Outcome State Fault Refusal :=
  match takeSelector s with
  | some (op, s') => runSelector op s'
  | none => .next (agentStep s)

/-- The state with the operation word `w` written to the command port, where `step` takes its next operation (R99;
log 1). -/
def State.withFetchWord (s : State) (_nbits w : Nat) : State := { s with port := some (BitVec.ofNat 8 w) }

end Sys2Proof.Machine
end

