-- ==== Sys2Proof/Safety.lean ====
section
/-! DEFINITION. What counts as a safe state and a safe run, in the terms the statements use. -/

namespace Sys2Proof.Machine

/-- `SEQ` holds a timing sequence (10_state.md R21, 30_encoding.md R92). -/
def SeqSafe (s : State) : Prop := TimingSeq.wf s.seq = true

/-- The transmit side: a configured or busy channel is allocated (43_transmit.md R200, R201); the carrier is on only
while a frame is in flight (R203, 10_state.md R36); the engine's place is inside the frame, and 0 with none in flight. -/
def TxSafe (s : State) : Prop :=
  (s.tx.busy = true → s.tx.alloc = true) ∧ (s.tx.cfg ≠ none → s.tx.alloc = true) ∧
  (s.tx.level = .carrierOn → s.tx.busy = true) ∧
  (s.tx.busy = false → s.tx.played = 0) ∧ s.tx.played ≤ (pairsOf s.tx.buf).length

/-- The receive side: queue, callback and configuration exist exactly while the channel does (R220, R231); a pending
batch is one the capture engine may deliver, and while it is pending the channel is not armed (20_memory.md R71);
`RXBUF` stays within its capacity (R60). -/
def RxSafe (s : State) : Prop :=
  (s.rx.state = .uninit ↔ s.rx.queue = .absent) ∧
  (s.rx.state = .uninit ↔ s.rx.callback = false) ∧
  (s.rx.state = .uninit ↔ s.rx.cfg = none) ∧
  (qFull s.rx = true → s.rx.state ≠ .armed) ∧
  (∀ b, s.rx.queue = .full b → b.wf = true) ∧
  s.rx.buf.length ≤ Config.rxSymbols

/-- The capture session: no session, no data; the pending text is empty exactly when nothing is committed; the last
text is the rendering of a timing sequence, and of one with a mark while it is held (10_state.md R31, R271). -/
def SesSafe (s : State) : Prop :=
  (s.ses.state = .none → s.ses.count = 0 ∧ s.ses.last = [] ∧ s.ses.pending = []) ∧
  (s.ses.count = 0 ↔ s.ses.pending = []) ∧
  (∃ q : TimingSeq, TimingSeq.wf q = true ∧ s.ses.last = render q) ∧
  (s.ses.state = .held → s.ses.last ≠ [])

/-- The bounded lists: at most 100 catalog entries (R32), at most 16 recent entries with distinct paths (R33). -/
def ListsSafe (s : State) : Prop :=
  s.cat.length ≤ Config.loadCap ∧ s.recents.length ≤ Config.recentCap ∧ (s.recents.map (·.path)).Nodup

/-- The external storage and the pin modes keep their canonical form (log 14). -/
def TablesSafe (s : State) : Prop := storageWf s.storage = true ∧ pinModesWf s.pinModes = true

/-- Every part of a safe state; `PAUSED` is false between operations (R278, R279). -/
structure Safe (s : State) : Prop where
  seq : SeqSafe s
  tx : TxSafe s
  rx : RxSafe s
  ses : SesSafe s
  lists : ListsSafe s
  tables : TablesSafe s
  paused : s.paused = false

/-- The step answered a next state. -/
def Goes (o : Host.Outcome State Fault Refusal) : Prop := ∃ t, o = .next t

/-! ## Terms the statements share -/

/-- The calls `APPENDRUN(r, pol, d)` one after another on an empty run list (40_primitives.md R130). -/
def appendAll (calls : List (Polarity × Nat)) : List Run := calls.foldl (fun r c => appendRun r c.1 c.2) []

/-- The polarity of a position: even is a mark, odd a space (20_memory.md R67). -/
def parity (k : Nat) : Polarity := if k % 2 = 0 then .mark else .space

/-- A list of durations as calls of APPENDRUN, the polarity from the position (43_transmit.md R201). -/
def byPosition (q : List Nat) : List (Polarity × Nat) := q.zipIdx.map (fun e => (parity e.2, e.1))

/-- The (level, duration) pairs of a timing sequence: level 1 at even positions (10_state.md R37). -/
def framePairs (q : List Nat) : List (Bool × Nat) := q.zipIdx.map (fun e => (decide (e.2 % 2 = 0), e.1))

/-- The symbol records TX.SEND packs of a list of durations (43_transmit.md R201, R202). -/
def packedFrame (q : List Nat) : List Symbol := pack (appendAll (byPosition q))

/-- The mark/space pairs of a batch in order, as calls of APPENDRUN (45_normalizer_decode.md R250). -/
def batchCalls (b : RawBatch) : List (Polarity × Nat) :=
  b.symbols.flatMap (fun y =>
    [(if y.level0 then .mark else .space, y.duration0.toNat), (if y.level1 then .mark else .space, y.duration1.toNat)])

/-- The bit sent at position `i` of `n` (41_encoder_families.md R150). -/
def bitSent (p : ProtocolSpec) (data n i : Nat) : Bool :=
  if p.bitOrder = .lsbFirst then data.testBit i else data.testBit (n - 1 - i)

/-- The header calls of a family builder (41_encoder_families.md R151). -/
def headerCalls (p : ProtocolSpec) : List (Polarity × Nat) :=
  if p.headerMark ≠ 0 then [(.mark, p.headerMark), (.space, p.headerSpace)] else []

/-- The trailer calls of the two pulse families (41_encoder_families.md R151, R152). -/
def trailerCalls (p : ProtocolSpec) : List (Polarity × Nat) :=
  if p.trailerMark ≠ 0 then
    (.mark, p.trailerMark) :: (if p.trailerSpace ≠ 0 then [(.space, p.trailerSpace)] else [])
  else []

/-- The waveform a receiver sees of a timing sequence whose last space is the idle that follows it: one interval an
element but the last, a microsecond being 1000 ns (44_receive.md R221). -/
def waveOf (activeLow : Bool) (q : List Nat) : List Interval :=
  q.dropLast.zipIdx.map (fun e => { high := decide (e.2 % 2 = 0) != activeLow, ns := 1000 * e.1 })

/-- One committed signal as text lines (30_encoding.md R96, 46_session.md R272). -/
def signalText (hz : Nat) (name data : Text) : Text :=
  "name: ".toList ++ name ++ "\ntype: raw\nfrequency: ".toList ++ Nat.toDigits 10 hz
    ++ "\nduty_cycle: 0.33\ndata: ".toList ++ data ++ "\n#\n".toList

/-- The trace of a send up to its frames: a frame still in flight ends first, then the carrier if it differs
(43_transmit.md R200, R207). -/
def traceBefore (tx : TxUnit) (c : TxConfig) : List TxEvent :=
  tx.trace ++ (if tx.busy then [.frame (pairsOf tx.buf)] else []) ++ (if tx.cfg = some c then [] else [.config c])

/-- The records of a list sent one after another: the registers loaded, TX.SENDCMD, `rec_idx` advanced, one boundary
answer used up for each; a fault stops before `rec_idx` advances (46_session.md R278). -/
def replayAll : List Command → State → State
  | [], s => s
  | c :: rest, s =>
    match exec .txSendcmd { s with cmd := c, env := { s.env with boundaries := s.env.boundaries.tail } } with
    | .next t => if t.fault then t else replayAll rest { t with recIdx := t.recIdx + 1 }
    | .fault _ => s
    | .refused _ => s

/-- RPL.SPAMALL before its first record, the file being open (46_session.md R278). -/
def replayStart (s : State) : State := { s with env := (drawRead s).2.env, recIdx := 0, paused := false }

/-- The lines of a text in a file: each followed by the line break `lf` (46_session.md R282). -/
def fileOf (lf : Text) (lines : List Text) : Text := lines.flatMap (fun l => l ++ lf)

/-- A line that begins with `#` (30_encoding.md R98). -/
def Terminator (line : Text) : Prop := line.head? = some '#'

/-- A mark at index `k` and the space after it are near their nominal values; the last space of the sequence is never
compared (45_normalizer_decode.md R254, R255). -/
def cellAt (tol mark space k : Nat) (q : List Nat) : Bool :=
  near tol (q.getD k 0) mark && (decide (k + 2 = q.length) || near tol (q.getD (k + 1) 0) space)

/-- The beginning of bit `i` of a biphase frame whose first bit begins at `t0` (45_normalizer_decode.md R257). -/
def bitStart (p : ProtocolSpec) (t0 i : Nat) : Nat :=
  t0 + 2 * p.unit * i + (match p.doubleIdx with
    | some j => if j < i then 2 * p.unit else 0
    | none => 0)

/-- The encoder succeeds, and DEC.MATCH of what it wrote to `SEQ` answers the name and a word from which the fields are
recovered (45_normalizer_decode.md R258). -/
def RoundTrip (l : Rc5Layout) (i : Instr) (name : Text) (nbits : Nat) (fields : Recovered) (s : State) : Prop :=
  ∃ t data, exec i s = .next t ∧ t.result = .ok ∧
    exec .decMatch t = .next { t with value := .decoded name data nbits } ∧ recover l name data = some fields

end Sys2Proof.Machine
end

