-- ==== Sys2Proof/Certificates/Slice0/Obligations.lean ====
section
/-! DEFINITION. The statements for the provers. Each is about the block's own operations and steps; none is about a
program. Where a statement names a whole next state, every field it does not mention is unchanged: that is its frame.
`result` is the register `RESULT`; `value` is what the operation returns to the host (30_encoding.md R99), `.none` where
its rule returns nothing: that it is held in the state is the model's choice (log 3). -/

open Sys2Proof Sys2Proof.Machine

/-! ## Encoding and the step -/

/-- The operation word of every operation decodes to it and leaves the bytes after it, and a word that decodes is the
encoding of what it decodes to (30_encoding.md R99, R100); with a few words written out from R100 and two reserved
ones. -/
def Obligations.SelectorCodecAgrees : Prop :=
  (∀ (i : Instr) (rest : List OpByte), decode (encode i ++ rest) = .ok (i, rest)) ∧
  (∀ (op : OpByte) (rest more : List OpByte) (i : Instr),
    decode (op :: rest) = .ok (i, more) → op :: rest = encode i ++ more) ∧
  decodeTableWord 8 0x01 = some .primAppendrun ∧ decodeTableWord 8 0x06 = some .famBiphase ∧
  decodeTableWord 8 0x10 = some .encNec ∧ decodeTableWord 8 0x1F = some .encAuto ∧
  decodeTableWord 8 0x21 = some .txSend ∧ decodeTableWord 8 0x31 = some .rxPoll ∧
  decodeTableWord 8 0x40 = some .norm ∧ decodeTableWord 8 0x52 = some .sesCommit ∧
  decodeTableWord 8 0x63 = some .recInsert ∧ decodeTableWord 8 0x03 = none ∧ decodeTableWord 8 0x64 = none

/-- Every selector outside the table of R100 changes `RESULT` only (the value port holds nothing, log 3). -/
def Obligations.ReservedSelectorNotSupported : Prop :=
  ∀ (s : State) (op : OpByte), s.fault = false → s.port = some op →
    op.toNat ∉ [0x01, 0x02, 0x04, 0x05, 0x06, 0x10, 0x11, 0x12, 0x13, 0x14, 0x15, 0x16, 0x17, 0x18, 0x19, 0x1F,
      0x20, 0x21, 0x22, 0x30, 0x31, 0x32, 0x33, 0x34, 0x35, 0x40, 0x41, 0x42, 0x43,
      0x50, 0x51, 0x52, 0x53, 0x54, 0x55, 0x60, 0x61, 0x62, 0x63] →
    step s = .next { s with port := none, result := .eNotSupported, value := .none }

/-- A step runs the operation that the waiting selector decodes to, with the port emptied; and `withFetchWord` puts
exactly that selector there (30_encoding.md R99). -/
def Obligations.StepRunsDecoded : Prop :=
  (∀ (s : State) (op : OpByte) (i : Instr) (rest : List OpByte),
    s.port = some op → decode [op] = .ok (i, rest) → step s = exec i { s with port := none }) ∧
  (∀ (s : State) (i : Instr) (n : Nat),
    step (s.withFetchWord n (selector i).toNat) = exec i { s with port := none })

/-- With no selector waiting, a step takes the next event: the host's writes of registers, arguments and selector, its
calls of the display and of the prompts, and the pin configuration do what they say and nothing else, and with no event
left the block waits. That the events stand in an agenda is the model's choice (log 1), and so is that the host may write
`SEQ`, a timing sequence only (log 31), and how the interface calls are held (log 32). -/
def Obligations.HostEventsWriteTheirRegisters : Prop :=
  ∀ (s : State) (rest : List Event), s.port = none →
    (s.agenda = [] → step s = .next s) ∧
    (∀ op, s.agenda = .hostOp op :: rest → step s = .next { s with agenda := rest, port := some op }) ∧
    (∀ c, s.agenda = .hostCommand c :: rest → step s = .next { s with agenda := rest, cmd := c }) ∧
    (∀ a, s.agenda = .hostArgs a :: rest → step s = .next { s with agenda := rest, args := a }) ∧
    (∀ n, s.agenda = .hostRepeat n :: rest → step s = .next { s with agenda := rest, repeats := n }) ∧
    (∀ m, s.agenda = .hostMaxWait m :: rest → step s = .next { s with agenda := rest, maxWait := m }) ∧
    (∀ q, s.agenda = .hostSeq q :: rest →
      (TimingSeq.wf q = true → step s = .next { s with agenda := rest, seq := q }) ∧
      (TimingSeq.wf q = false → step s = .next { s with agenda := rest })) ∧
    (∀ w, s.agenda = .hostShow w :: rest → step s = .next { s with agenda := rest, shown := s.shown ++ [w] }) ∧
    (∀ labels, s.agenda = .hostChoice labels :: rest →
      step s = .next { s with
        agenda := rest, env := (drawChoice s).2.env, value := .chosen (drawChoice s).1 }) ∧
    (∀ title len initial, s.agenda = .hostText title len initial :: rest →
      step s = .next { s with agenda := rest, env := (drawText s).2.env, value := .text (drawText s).1 }) ∧
    (∀ pin mode, s.agenda = .configurePin pin mode :: rest → ∃ modes,
      step s = .next { s with agenda := rest, pinModes := modes } ∧ modes.lookup pin = some mode ∧
      ∀ other, other ≠ pin → modes.lookup other = s.pinModes.lookup other)

/-- An input flag is set by the environment, and a poll returns it and leaves it false, in one step; every step but
those two and RPL.SPAMALL leaves the flags as they are (60_exceptions.md R313). The events are the model's (log 1). -/
def Obligations.PollReadsAndClearsFlag : Prop :=
  (∀ s t : State, step s = .next t → s.port ≠ some 0x62 →
    (s.port = none → ∀ rest, (∀ f, s.agenda ≠ .input f :: rest) ∧ ∀ n, s.agenda ≠ .hostPoll n :: rest) →
    t.flags = s.flags) ∧
  ∀ (s : State) (rest : List Event), s.port = none →
    (∀ f, s.agenda = .input f :: rest → step s = .next { s with
      agenda := rest
      flags := { next := s.flags.next || f.next, previous := s.flags.previous || f.previous,
                 select := s.flags.select || f.select, escape := s.flags.escape || f.escape } }) ∧
    (s.agenda = .hostPoll .next :: rest → step s = .next { s with
      agenda := rest, value := .flag s.flags.next, flags := { s.flags with next := false } }) ∧
    (s.agenda = .hostPoll .previous :: rest → step s = .next { s with
      agenda := rest, value := .flag s.flags.previous, flags := { s.flags with previous := false } }) ∧
    (s.agenda = .hostPoll .select :: rest → step s = .next { s with
      agenda := rest, value := .flag s.flags.select, flags := { s.flags with select := false } }) ∧
    (s.agenda = .hostPoll .escape :: rest → step s = .next { s with
      agenda := rest, value := .flag s.flags.escape, flags := { s.flags with escape := false } })

/-- A faulted block: every operation, also a reserved selector, ends at once with `F_FAULTED` and writes nothing but
`RESULT` (and empties the value port, log 3); no step clears `FAULT`; no engine takes a step (60_exceptions.md R309). -/
def Obligations.FaultedBlockRefusesEverything : Prop :=
  ∀ s : State, s.fault = true →
    (∀ i, exec i s = .next { s with result := .fFaulted, value := .none }) ∧
    (∀ op, s.port = some op → step s = .next { s with port := none, result := .fFaulted, value := .none }) ∧
    (∀ t, step s = .next t → t.fault = true ∧ t.tx = s.tx ∧ t.rx = s.rx)

/-! ## Reset and invariants -/

/-- The state after reset, the values of 70_reset_and_hazards.md R341. -/
def Obligations.ResetValues : Prop :=
  State.reset.cmd =
    { type := [], protocol := [], address := [], command := [], data := [], bits := 32, frequency := 0, name := [],
      path := [] } ∧
  State.reset.seq = [] ∧ State.reset.tx.alloc = false ∧ State.reset.tx.cfg = none ∧ State.reset.tx.busy = false ∧
  State.reset.tx.level = .low ∧ State.reset.tx.trace = [] ∧ State.reset.repeats = 0 ∧ State.reset.maxWait = none ∧
  State.reset.rx.state = .uninit ∧ State.reset.rx.queue = .absent ∧ State.reset.rx.cfg = none ∧
  State.reset.rx.callback = false ∧ State.reset.ses = { state := .none, count := 0, last := [], pending := [] } ∧
  State.reset.cat = [] ∧ State.reset.recents = [] ∧ State.reset.recIdx = 0 ∧ State.reset.paused = false ∧
  State.reset.result = .ok ∧ State.reset.fault = false ∧
  State.reset.flags = { next := false, previous := false, select := false, escape := false } ∧
  State.reset.params.table.map (·.1) = ["NEC".toList, "NECext".toList, "Samsung32".toList, "SIRC".toList,
    "SIRC15".toList, "SIRC20".toList, "Kaseikyo".toList, "RC5".toList, "RC6".toList]

/-- The invariants hold right after reset. -/
def Obligations.ResetIsSafe : Prop := Safe State.reset

/-- Every step keeps `SEQ` a timing sequence and the session's data in shape: no session, no data; no committed signal
exactly when the pending text is empty; the last text renders a timing sequence, a nonempty one while held. -/
def Obligations.StepKeepsSequenceAndSession : Prop :=
  ∀ s t : State, step s = .next t → (SeqSafe s → SeqSafe t) ∧ (SesSafe s → SesSafe t)

/-- Every step keeps the channels in shape: a busy or configured transmit channel is allocated; the carrier is on only
while a frame is in flight, and the engine's place (log 19) is inside the frame; the queue, the callback
and the receive configuration exist exactly while the receive channel does; while a batch is pending the channel is not
armed (20_memory.md R71); a pending batch is one a capture may deliver; `RXBUF` stays within 256 records. -/
def Obligations.StepKeepsChannels : Prop :=
  ∀ s t : State, step s = .next t → (TxSafe s → TxSafe t) ∧ (RxSafe s → RxSafe t)

/-- Every step keeps the catalog within 100 entries, the recent buffer within 16 entries of distinct paths, and leaves
`PAUSED` false where it was; and it keeps the storage and pin tables in canonical form, which is the model's own
representation (log 14). -/
def Obligations.StepKeepsLists : Prop :=
  ∀ s t : State, step s = .next t →
    (ListsSafe s → ListsSafe t) ∧ (TablesSafe s → TablesSafe t) ∧ (s.paused = false → t.paused = false)

/-- The transmit trace only grows (10_state.md R37), and so do the texts handed to storage and what the host has shown
(00_scope.md R11, R12; log 33), and no step writes the protocol table or another parameter (10_state.md R28). -/
def Obligations.TraceGrowsAndTableStays : Prop :=
  ∀ s t : State, step s = .next t → 
    s.tx.trace <+: t.tx.trace ∧ s.handed <+: t.handed ∧ s.shown <+: t.shown ∧ t.params = s.params

/-- No transmit operation reads or writes receive state, and no receive operation reads or writes transmit state
(20_memory.md R77): with the other side replaced by anything, the operation does the same and leaves it as it is. -/
def Obligations.TransmitAndReceiveIndependent : Prop :=
  (∀ (s t : State) (i : Instr) (r : RxUnit), i ∈ [Instr.txEnsure, .txSend, .txSendcmd] → exec i s = .next t →
    exec i { s with rx := r } = .next { t with rx := r }) ∧
  (∀ (s t : State) (i : Instr) (u : TxUnit),
    i ∈ [Instr.rxInit, .rxPoll, .rxRearm, .rxDrain, .rxRestart, .rxDeinit] → exec i s = .next t →
    exec i { s with tx := u } = .next { t with tx := u })

/-! ## Timing-sequence primitives -/

/-- PRIM.APPENDRUN appends `ceil(d / 65535)` runs of the given polarity whose durations sum to `d`, the full chunks
first, none of length zero (40_primitives.md R130). -/
def Obligations.AppendrunSplitsPulse : Prop :=
  ∀ s : State, s.fault = false → ∃ new : List Run,
    exec .primAppendrun s = .next { s with result := .ok, value := .runs (s.args.runs ++ new) } ∧
    (new.map (·.dur)).sum = s.args.dur ∧ new.length = (s.args.dur + 65534) / 65535 ∧
    (∀ r ∈ new, r.pol = s.args.pol ∧ 1 ≤ r.dur ∧ r.dur ≤ 65535) ∧ (∀ r ∈ new.dropLast, r.dur = 65535)

/-- PRIM.COALESCE: zero runs dropped, leading idle dropped, each group of runs of one polarity summed under the cap of
65535, an odd count padded with 1 (40_primitives.md R131). -/
def Obligations.CoalesceSumsGroups : Prop :=
  ∀ s : State, s.fault = false →
    exec .primCoalesce s = .next { s with
      seq :=
        (let groups := ((s.args.runs.filter (fun r => decide (r.dur ≠ 0))).dropWhile
            (fun r => decide (r.pol = .space))).splitBy (fun a b => decide (a.pol = b.pol))
         let sums := groups.map (fun g => min 65535 ((g.map (·.dur)).sum))
         if sums.length % 2 = 1 then sums ++ [1] else sums)
      result := .ok
      value := .none }

/-- Every result of COALESCE has even length and elements in 1 to 65535 (40_primitives.md R133), and COALESCE of its
runs changes nothing (R134). -/
def Obligations.CoalesceWellFormedAndIdempotent : Prop :=
  ∀ runs : List Run,
    (coalesce runs).length % 2 = 0 ∧ (∀ d ∈ coalesce runs, 1 ≤ d ∧ d ≤ 65535) ∧
    coalesce (runsOf (coalesce runs)) = coalesce runs

/-! ## Encoding families -/

/-- FAM.PD: header pair, then mark and space of each bit in order of transmission, then the trailer, each through
APPENDRUN, the whole through COALESCE (41_encoder_families.md R151). -/
def Obligations.PulseDistanceBuilder : Prop :=
  ∀ s : State, s.fault = false →
    exec .famPd s = .next { s with
      seq :=
        (let p := s.args.spec
         coalesce (appendAll (headerCalls p ++
           (List.range s.args.nbits).flatMap (fun i =>
             if bitSent p s.args.word s.args.nbits i then [(.mark, p.oneMark), (.space, p.oneSpace)]
             else [(.mark, p.zeroMark), (.space, p.zeroSpace)]) ++ trailerCalls p)))
      result := .ok
      value := .none }

/-- FAM.PW: as FAM.PD, but the mark alone carries the bit and every space is `zero_space`
(41_encoder_families.md R152). -/
def Obligations.PulseWidthBuilder : Prop :=
  ∀ s : State, s.fault = false →
    exec .famPw s = .next { s with
      seq :=
        (let p := s.args.spec
         coalesce (appendAll (headerCalls p ++
           (List.range s.args.nbits).flatMap (fun i =>
             [(.mark, if bitSent p s.args.word s.args.nbits i then p.oneMark else p.zeroMark),
              (.space, p.zeroSpace)]) ++ trailerCalls p)))
      result := .ok
      value := .none }

/-- FAM.BIPHASE: each bit is two half-periods of opposite polarity, their unit doubled at the designated index, and
there is no trailer (41_encoder_families.md R153). -/
def Obligations.BiphaseBuilder : Prop :=
  ∀ s : State, s.fault = false →
    exec .famBiphase s = .next { s with
      seq :=
        (let p := s.args.spec
         coalesce (appendAll (headerCalls p ++
           (List.range s.args.nbits).flatMap (fun i =>
             let u := if p.doubleIdx = some i then 2 * p.unit else p.unit
             if bitSent p s.args.word s.args.nbits i = p.oneActiveFirst then [(.mark, u), (.space, u)]
             else [(.space, u), (.mark, u)]))))
      result := .ok
      value := .none }

/-! ## Named protocols -/

/-- ENC.NEC: the word is address, complement, command, complement from the low byte up; a bad operand is
`E_MALFORMED_HEX` and changes nothing else (42_encoder_protocols.md R171, R183).
That the row is the one of its own name is an inference (log 11). -/
def Obligations.NecEncoding : Prop :=
  ∀ (s : State) (row : ProtocolSpec), s.fault = false → s.params.table.lookup "NEC".toList = some row →
    (∀ a c, firstByte s.cmd.address = some a → firstByte s.cmd.command = some c →
      exec .encNec s = .next { s with
        seq := famPd row (a + 2 ^ 8 * (255 - a) + 2 ^ 16 * c + 2 ^ 24 * (255 - c)) 32
        result := .ok
        value := .none }) ∧
    (firstByte s.cmd.address = none ∨ firstByte s.cmd.command = none →
      exec .encNec s = .next { s with result := .eMalformedHex, value := .none })

/-- ENC.NECEXT: each field cut at the terminator, its low 16 bits byte-swapped and then bit-reversed, the address in
the low half (42_encoder_protocols.md R172, R183; the row of its own name: log 11). -/
def Obligations.NecextEncoding : Prop :=
  ∀ (s : State) (row : ProtocolSpec), s.fault = false → s.params.table.lookup "NECext".toList = some row →
    (∀ a c, hexval (trunc00 s.cmd.address) = some a → hexval (trunc00 s.cmd.command) = some c →
      exec .encNecext s = .next { s with
        seq := famPd row
          (bitrev 16 (2 ^ 8 * (a % 2 ^ 8) + a / 2 ^ 8 % 2 ^ 8) +
            2 ^ 16 * bitrev 16 (2 ^ 8 * (c % 2 ^ 8) + c / 2 ^ 8 % 2 ^ 8)) 32
        result := .ok
        value := .none }) ∧
    (hexval (trunc00 s.cmd.address) = none ∨ hexval (trunc00 s.cmd.command) = none →
      exec .encNecext s = .next { s with result := .eMalformedHex, value := .none })

/-- ENC.RC5 under each layout: start bits, toggle 0, field bit, five address bits, six command bits; ENC.RC6: mode bits
and toggle 0, then address and command, 20 bits; a bad operand is `E_MALFORMED_HEX` (42_encoder_protocols.md R173,
R174, R183; the row of its own name: log 11). -/
def Obligations.Rc5AndRc6Encoding : Prop :=
  (∀ (s : State) (row : ProtocolSpec), s.fault = false → s.params.table.lookup "RC5".toList = some row →
      (∀ a c, firstByte s.cmd.address = some a → firstByte s.cmd.command = some c →
        (s.params.rc5Layout = .listed15 → exec .encRc5 s = .next { s with
          seq := famBiphase row
            (2 ^ 14 + 2 ^ 13 + (if c ≤ 0x3F then 2 ^ 11 else 0) + 2 ^ 6 * (a % 32) + c % 64) 15
          result := .ok
          value := .none }) ∧
        (s.params.rc5Layout = .std14 → exec .encRc5 s = .next { s with
          seq := famBiphase row (2 ^ 13 + (if c ≤ 0x3F then 2 ^ 12 else 0) + 2 ^ 6 * (a % 32) + c % 64) 14
          result := .ok
          value := .none })) ∧
      (firstByte s.cmd.address = none ∨ firstByte s.cmd.command = none →
        exec .encRc5 s = .next { s with result := .eMalformedHex, value := .none })) ∧
  (∀ (s : State) (row : ProtocolSpec), s.fault = false → s.params.table.lookup "RC6".toList = some row →
      (∀ a c, firstByte s.cmd.address = some a → firstByte s.cmd.command = some c →
        exec .encRc6 s = .next { s with seq := famBiphase row (2 ^ 8 * a + c) 20, result := .ok, value := .none }) ∧
      (firstByte s.cmd.address = none ∨ firstByte s.cmd.command = none →
        exec .encRc6 s = .next { s with result := .eMalformedHex, value := .none }))

/-- ENC.SAMSUNG32: a field of one or two digits is doubled, one of up to four taken as it is, a longer one refused
(42_encoder_protocols.md R175, R183; the row of its own name: log 11). -/
def Obligations.Samsung32Encoding : Prop :=
  ∀ (s : State) (row : ProtocolSpec), s.fault = false → s.params.table.lookup "Samsung32".toList = some row →
    (∀ a c, hexval s.cmd.address = some a → hexval s.cmd.command = some c →
      ndigits s.cmd.address ≤ 4 → ndigits s.cmd.command ≤ 4 →
      exec .encSamsung32 s = .next { s with
        seq := famPd row
          ((if ndigits s.cmd.address ≤ 2 then 2 ^ 8 * a + a else a) +
            2 ^ 16 * (if ndigits s.cmd.command ≤ 2 then 2 ^ 8 * c + c else c)) 32
        result := .ok
        value := .none }) ∧
    (hexval s.cmd.address = none ∨ hexval s.cmd.command = none ∨ 4 < ndigits s.cmd.address ∨
        4 < ndigits s.cmd.command →
      exec .encSamsung32 s = .next { s with result := .eMalformedHex, value := .none })

/-- ENC.SIRC, ENC.SIRC15 and ENC.SIRC20: byte-swapped address over seven command bits, all `n` bits reversed
(42_encoder_protocols.md R176 to R179, R183; the row of its own name: log 11). -/
def Obligations.SircEncoding : Prop :=
  ∀ (s : State) (row : ProtocolSpec) (i : Instr) (name : Text) (n : Nat),
    (i, name, n) ∈ [(Instr.encSirc, "SIRC".toList, 12), (.encSirc15, "SIRC15".toList, 15),
      (.encSirc20, "SIRC20".toList, 20)] →
    s.fault = false → s.params.table.lookup name = some row →
    (∀ a c, hexval s.cmd.address = some a → hexval s.cmd.command = some c →
      ndigits s.cmd.address ≤ 8 → ndigits s.cmd.command ≤ 8 →
      exec i s = .next { s with
        seq := famPw row (bitrev n (2 ^ 7 * (bswap32 a % 2 ^ (n - 7)) + bswap32 c % 2 ^ 7)) n
        result := .ok
        value := .none }) ∧
    (hexval s.cmd.address = none ∨ hexval s.cmd.command = none ∨ 8 < ndigits s.cmd.address ∨
        8 < ndigits s.cmd.command →
      exec i s = .next { s with result := .eMalformedHex, value := .none })

/-- ENC.KASEIKYO under the default field positions: six bytes with the parity nibble and the checksum, least
significant first, all 48 bits reversed; under other positions it still completes with some frame of 48 bits
(42_encoder_protocols.md R180, R183; positions: log 20; the row of its own name: log 11). -/
def Obligations.KaseikyoEncoding : Prop :=
  ∀ (s : State) (row : ProtocolSpec), s.fault = false → s.params.table.lookup "Kaseikyo".toList = some row →
    (∀ a c, hexval s.cmd.address = some a → hexval s.cmd.command = some c →
      ndigits s.cmd.address ≤ 8 → ndigits s.cmd.command ≤ 8 →
      (∃ data, exec .encKaseikyo s = .next { s with seq := famPd row data 48, result := .ok, value := .none }) ∧
      (s.params.kaseikyo = defaultKaseikyo → ∀ a32 c32 vendor b0 b1 b2 b3 b4 : Nat,
        a32 = bswap32 a → c32 = bswap32 c → vendor = a32 / 2 ^ 8 % 2 ^ 16 →
        b0 = vendor % 256 → b1 = vendor / 256 →
        b2 = ((b0 ^^^ b1) % 16 ^^^ (b0 ^^^ b1) / 16) + 16 * (a32 / 2 ^ 4 % 16) →
        b3 = 16 * (c32 % 16) + a32 % 16 →
        b4 = 64 * (a32 / 2 ^ 24 % 4) + c32 % 2 ^ 10 / 16 →
        exec .encKaseikyo s = .next { s with
          seq := famPd row
            (bitrev 48 (b0 + 2 ^ 8 * b1 + 2 ^ 16 * b2 + 2 ^ 24 * b3 + 2 ^ 32 * b4 + 2 ^ 40 * (b2 ^^^ b3 ^^^ b4))) 48
          result := .ok
          value := .none })) ∧
    (hexval s.cmd.address = none ∨ hexval s.cmd.command = none ∨ 8 < ndigits s.cmd.address ∨
        8 < ndigits s.cmd.command →
      exec .encKaseikyo s = .next { s with result := .eMalformedHex, value := .none })

/-- ENC.RAW: the durations of `DATA` by position through both primitives, or `E_MALFORMED_HEX`
(42_encoder_protocols.md R181, R183). -/
def Obligations.RawEncoding : Prop :=
  ∀ s : State, s.fault = false →
    (∀ v, durations s.cmd.data = some v →
      exec .encRaw s = .next { s with seq := coalesce (appendAll (byPosition v)), result := .ok, value := .none }) ∧
    (durations s.cmd.data = none → exec .encRaw s = .next { s with result := .eMalformedHex, value := .none })

/-- ENC.AUTO dispatches on `TYPE`, then on `PROTO`, exact case: it ends as the encoder it selects ends
(42_encoder_protocols.md R170). -/
def Obligations.AutoDispatchesOnTypeAndName : Prop :=
  ∀ s : State, s.fault = false →
    (∀ v, s.cmd.type = "raw".toList → durations s.cmd.data = some v →
      exec .encAuto s = .next { s with seq := coalesce (appendAll (byPosition v)), result := .ok, value := .none }) ∧
    (s.cmd.type = "raw".toList → exec .encAuto s = exec .encRaw s) ∧
    (s.cmd.type ≠ "raw".toList → s.cmd.type ≠ "parsed".toList →
      exec .encAuto s = .next { s with result := .eNotSupported, value := .none }) ∧
    (∀ name i, (name, i) ∈ [("NEC".toList, Instr.encNec), ("NECext".toList, .encNecext), ("RC5".toList, .encRc5),
        ("RC6".toList, .encRc6), ("Samsung32".toList, .encSamsung32), ("SIRC".toList, .encSirc),
        ("SIRC15".toList, .encSirc15), ("SIRC20".toList, .encSirc20), ("Kaseikyo".toList, .encKaseikyo)] →
      s.cmd.type = "parsed".toList → s.cmd.protocol = name → s.params.table.lookup name ≠ none →
      exec .encAuto s = exec i s ∧ ∃ t, exec .encAuto s = .next t) ∧
    (s.cmd.type = "parsed".toList →
      (s.params.table.lookup s.cmd.protocol = none ∨
        s.cmd.protocol ∉ ["NEC".toList, "NECext".toList, "RC5".toList, "RC6".toList, "Samsung32".toList,
          "SIRC".toList, "SIRC15".toList, "SIRC20".toList, "Kaseikyo".toList]) →
      exec .encAuto s = .next { s with result := .eNotSupported, value := .none })

/-- An encoder whose own row is missing from the table is not supported and writes no other state. That each encoder
takes the row of its own name is an inference (log 11). -/
def Obligations.MissingRowNotSupported : Prop :=
  ∀ (s : State) (name : Text) (i : Instr),
    (name, i) ∈ [("NEC".toList, Instr.encNec), ("NECext".toList, .encNecext), ("RC5".toList, .encRc5),
      ("RC6".toList, .encRc6), ("Samsung32".toList, .encSamsung32), ("SIRC".toList, .encSirc),
      ("SIRC15".toList, .encSirc15), ("SIRC20".toList, .encSirc20), ("Kaseikyo".toList, .encKaseikyo)] →
    s.fault = false → s.params.table.lookup name = none →
    exec i s = .next { s with result := .eNotSupported, value := .none }

/-! ## Operand texts -/

/-- `hexval`: empty or a character that is no hex digit is malformed; else the base-16 numeral, first character most
significant, spaces ignored, either case (30_encoding.md R102); `first_byte` reads the first two characters (R103);
`trunc00` cuts at the first pair of zeros at offset 2 or later (R106). -/
def Obligations.HexFieldsAreNumerals : Prop :=
  (∀ t : Text,
    (hexval t = none ↔
      t.filter (· ≠ ' ') = [] ∨ ∃ c ∈ t, c ≠ ' ' ∧ c ∉ "0123456789abcdefABCDEF".toList) ∧
    hexval t = hexval (t.filter (· ≠ ' ')) ∧ ndigits t = (t.filter (· ≠ ' ')).length ∧
    firstByte t = (if hexval t = none then none else hexval ((t.filter (· ≠ ' ')).take 2))) ∧
  (∀ (n zeros : Nat) (t : Text),
    t.map Char.toLower = List.replicate zeros '0' ++ Nat.toDigits 16 n → hexval t = some n) ∧
  (∀ t : Text,
    (∀ p, 2 ≤ p → t[p]? = some '0' → t[p + 1]? = some '0' →
      (∀ k, 2 ≤ k → k < p → ¬(t[k]? = some '0' ∧ t[k + 1]? = some '0')) → trunc00 t = t.take p) ∧
    ((∀ k, 2 ≤ k → ¬(t[k]? = some '0' ∧ t[k + 1]? = some '0')) → trunc00 t = t))

/-- `bitrev_N` puts bit `k` at place `N-1-k` and stays below `2^N`; the byte swaps exchange the bytes
(30_encoding.md R104, R105). -/
def Obligations.BitPermutations : Prop :=
  (∀ n v k : Nat, k < n → (bitrev n v).testBit (n - 1 - k) = v.testBit k ∧ bitrev n v < 2 ^ n) ∧
  (∀ b0 b1 : Nat, b0 < 256 → b1 < 256 → bswap16 (2 ^ 8 * b1 + b0) = 2 ^ 8 * b0 + b1) ∧
  (∀ b0 b1 b2 b3 : Nat, b0 < 256 → b1 < 256 → b2 < 256 → b3 < 256 →
    bswap32 (2 ^ 24 * b3 + 2 ^ 16 * b2 + 2 ^ 8 * b1 + b0) = 2 ^ 24 * b0 + 2 ^ 16 * b1 + 2 ^ 8 * b2 + b3)

/-- SEQ.TOTEXT returns the decimal numerals of `SEQ` joined by single spaces (45_normalizer_decode.md R251). The text of
a list reads back as it (30_encoding.md R108). SEQ.FROMTEXT writes the repaired sequence, which for the text of a timing
sequence is that sequence, and fails for a token that is no decimal numeral, leaving `SEQ` (R252). -/
def Obligations.SequenceTextOperations : Prop :=
  (∀ q : List Nat, durations (render q) = some q) ∧
  (∀ s : State, s.fault = false →
    exec .seqTotext s = .next { s with
      result := .ok, value := .text ([' '].intercalate (s.seq.map (Nat.toDigits 10))) } ∧
    (∀ v, durations s.args.text = some v →
      exec .seqFromtext s = .next { s with
        seq := coalesce (appendAll (byPosition v)), result := .ok, value := .none }) ∧
    (∀ q, TimingSeq.wf q = true → s.args.text = [' '].intercalate (q.map (Nat.toDigits 10)) →
      exec .seqFromtext s = .next { s with seq := q, result := .ok, value := .none }) ∧
    ((∃ c ∈ s.args.text, c ≠ ' ' ∧ c ∉ "0123456789".toList) →
      exec .seqFromtext s = .next { s with result := .eMalformedHex, value := .none }))

/-! ## Transmit -/

/-- TX.ENSURE allocates once and configures by difference: an equal configuration appends no event, and a second equal
call changes nothing but the value port (43_transmit.md R200). -/
def Obligations.EnsureConfiguresByDifference : Prop :=
  ∀ (s : State) (c : TxConfig), s.fault = false →
    c = { carrierHz := s.args.carrierHz, duty := s.args.duty, invert := s.args.invert } →
    (s.tx.alloc = true → s.tx.cfg = some c →
      exec .txEnsure s = .next { s with result := .ok, value := .none }) ∧
    (s.tx.alloc = true → s.tx.cfg ≠ some c →
      exec .txEnsure s = .next { s with
        tx := { s.tx with cfg := some c, trace := s.tx.trace ++ [.config c] }, result := .ok, value := .none }) ∧
    (s.tx.alloc = false → (drawAlloc s).1 = true → ∃ t,
      exec .txEnsure s = .next t ∧ t.result = .ok ∧ t.tx.alloc = true ∧ t.tx.cfg = some c ∧
      t.tx.trace = s.tx.trace ++ (if s.tx.cfg = some c then [] else [.config c]) ∧
      t = { s with env := (drawAlloc s).2.env, tx := { s.tx with alloc := true, cfg := some c, trace := t.tx.trace },
                   result := .ok, value := .none }) ∧
    (s.tx.alloc = false → (drawAlloc s).1 = false →
      exec .txEnsure s = .next { s with
        env := (drawAlloc s).2.env, fault := true, result := .fHwAlloc, value := .none }) ∧
    (∀ t, exec .txEnsure s = .next t → t.result = .ok → exec .txEnsure t = .next t)

/-- A failed allocation is a fault: `FAULT` is set, `RESULT` is `F_HW_ALLOC`, and the operation and those that called it
end at once with no further effect (60_exceptions.md R306); RPL.SPAMALL's fault is in the statement on it. -/
def Obligations.AllocationFailureFaults : Prop :=
  ∀ s : State, s.fault = false → (drawAlloc s).1 = false →
    (s.tx.alloc = false →
      exec .txEnsure s = .next { s with
        env := (drawAlloc s).2.env, fault := true, result := .fHwAlloc, value := .none }) ∧
    (s.tx.alloc = false → s.tx.busy = false → s.args.seq.getD s.seq ≠ [] →
      exec .txSend s = .next { s with
        env := (drawAlloc s).2.env, fault := true, result := .fHwAlloc, value := .none }) ∧
    (∀ q, q ≠ [] → s.tx.alloc = false → s.tx.busy = false →
      encAuto s.params s.cmd = .ok q →
      exec .txSendcmd s = .next { s with
        seq := q, env := (drawAlloc s).2.env, fault := true, result := .fHwAlloc, value := .none }) ∧
    (∀ c q, s.cat[s.args.index]? = some c → q ≠ [] → s.tx.alloc = false → s.tx.busy = false →
      encAuto s.params c = .ok q →
      exec .rplSelect s = .next { s with
        cmd := c, seq := q, env := (drawAlloc s).2.env, fault := true, result := .fHwAlloc, value := .none }) ∧
    (s.rx.state = .uninit →
      exec .rxInit s = .next { s with
        env := (drawAlloc s).2.env, fault := true, result := .fHwAlloc, value := .none }) ∧
    (s.ses.state = .none → s.rx.state = .uninit →
      exec .sesEnter s = .next { s with
        env := (drawAlloc s).2.env, fault := true, result := .fHwAlloc, value := .none })

/-- TX.SEND of a nonempty sequence, the wait unbounded: carrier configured if it differs, records packed, the frame
played and recorded, the pin at the idle level, the channel not busy (43_transmit.md R201, R204). A frame still in
flight ends first (R207; log 7). -/
def Obligations.SendPlaysTheFrame : Prop :=
  ∀ (s : State) (q : List Nat) (c : TxConfig), s.fault = false → s.maxWait = none →
    (s.tx.alloc = true ∨ (drawAlloc s).1 = true) →
    (s.args.seq = some q ∨ (s.args.seq = none ∧ s.seq = q)) → q ≠ [] →
    c = { carrierHz := s.args.carrierHz, duty := s.args.duty, invert := s.args.invert } →
    exec .txSend s = .next { s with
      env := if s.tx.alloc then s.env else (drawAlloc s).2.env
      tx := { alloc := true, busy := false, cfg := some c, buf := packedFrame q, played := 0, level := .idleLevel,
              trace := traceBefore s.tx c ++ [.frame (pairsOf (packedFrame q))] }
      result := .ok
      value := .none }

/-- The frame of a timing sequence is the sequence: level 1 at even positions, each duration as it is; and PACK puts two
runs in a record, an odd final run with a 1 microsecond idle (43_transmit.md R201, R202). -/
def Obligations.PackedFrameIsTheSequence : Prop :=
  (∀ q : TimingSeq, TimingSeq.wf q = true → pairsOf (packedFrame q) = framePairs q) ∧
  (∀ runs : List Run, (∀ r ∈ runs, 1 ≤ r.dur ∧ r.dur ≤ 65535) →
    pairsOf (pack runs) =
      runs.map (fun r => (decide (r.pol = .mark), r.dur)) ++ (if runs.length % 2 = 1 then [(false, 1)] else []) ∧
    (pack runs).length = (runs.length + 1) / 2)

/-- With a finite `MAXWAIT` both outcomes exist: it elapses, TX.SEND ends with `E_TIMEOUT` and the frame stays in flight,
some of its pairs played; or the engine completes first (43_transmit.md R207). With a frame in flight the engine may
play the next pair, which turns the carrier on or the pin idle (R203), or complete it, which records it (R204). How many
pairs are played at the timeout is a draw (logs 4 and 19), the engine's later steps are events (log 1), and a frame in
flight before the send ends first (log 7). -/
def Obligations.FiniteWaitMayTimeOut : Prop :=
  (∀ (s : State) (q : List Nat) (c : TxConfig) (m : Nat) (w : Bool × State) (n : Nat × State),
    s.fault = false → s.maxWait = some m → (s.tx.alloc = true ∨ (drawAlloc s).1 = true) →
    s.args.seq.getD s.seq = q → q ≠ [] →
    c = { carrierHz := s.args.carrierHz, duty := s.args.duty, invert := s.args.invert } →
    w = drawWait { s with env := if s.tx.alloc then s.env else (drawAlloc s).2.env } → n = drawPlays w.2 →
    (w.1 = true →
      exec .txSend s = .next { s with
        env := n.2.env
        tx := { alloc := true, busy := true, cfg := some c, buf := packedFrame q,
                played := min n.1 (pairsOf (packedFrame q)).length,
                level := (match ((pairsOf (packedFrame q)).take n.1).getLast? with
                  | none => if s.tx.busy then .idleLevel else s.tx.level
                  | some pair => if pair.1 then .carrierOn else .idleLevel),
                trace := traceBefore s.tx c }
        result := .eTimeout
        value := .none }) ∧
    (w.1 = false →
      exec .txSend s = .next { s with
        env := w.2.env
        tx := { alloc := true, busy := false, cfg := some c, buf := packedFrame q, played := 0, level := .idleLevel,
                trace := traceBefore s.tx c ++ [.frame (pairsOf (packedFrame q))] }
        result := .ok
        value := .none })) ∧
  (∀ (t : State) (rest : List Event), t.fault = false → t.port = none → t.tx.busy = true →
    (t.agenda = .txComplete :: rest →
      step t = .next { t with
        agenda := rest
        tx := { t.tx with busy := false, played := 0, level := .idleLevel,
                          trace := t.tx.trace ++ [.frame (pairsOf t.tx.buf)] } }) ∧
    (∀ pair more, t.agenda = .txPlay :: rest → (pairsOf t.tx.buf).drop t.tx.played = pair :: more →
      step t = .next { t with
        agenda := rest
        tx := { t.tx with played := t.tx.played + 1, level := if pair.1 then .carrierOn else .idleLevel } })) ∧
  (∀ (tx : TxUnit) (c : TxConfig), tx.cfg = some c →
    (tx.level = .carrierOn → physicalPin tx = .carrier c.carrierHz c.duty (!c.invert)) ∧
    (tx.level = .idleLevel → physicalPin tx = .steady c.invert) ∧ (tx.level = .low → physicalPin tx = .steady false))

/-- An empty sequence: TX.SEND and DEC.MATCH end with `E_EMPTY_SEQ` before anything else is done; the channel is not
allocated, the carrier not configured, nothing sent (60_exceptions.md R302). -/
def Obligations.EmptySequenceRefused : Prop :=
  ∀ s : State, s.fault = false →
    (s.args.seq.getD s.seq = [] → exec .txSend s = .next { s with result := .eEmptySeq, value := .none }) ∧
    (s.seq = [] → exec .decMatch s = .next { s with result := .eEmptySeq, value := .none })

/-- TX.SENDCMD: one encoding, then `REPEAT + 1` frames with identical sequence and carrier, then the pin low
(43_transmit.md R205). A raw record takes its own frequency or the default, a parsed one its row's carrier. With a finite
`MAXWAIT` there are still `REPEAT + 1` invocations, each with its own wait, a frame whose wait elapsed is recorded before
the next, the last one before the pin goes low or later (R204), and the first failure is the result. A frame in flight
before the operation ends first (R207; log 7); what the engine does before the pin goes low is a draw (logs 4 and 6). -/
def Obligations.SendcmdSendsRepeatPlusOneFrames : Prop :=
  ∀ (s : State) (q : TimingSeq) (c : TxConfig) (f : TxEvent), s.fault = false →
    (s.tx.alloc = true ∨ (drawAlloc s).1 = true) → q ≠ [] →
    encAuto s.params s.cmd = .ok q →
    ((s.cmd.type = "raw".toList ∧
        c = { carrierHz := if s.cmd.frequency ≠ 0 then s.cmd.frequency else s.params.rawDefaultFreq,
              duty := s.params.defaultDuty, invert := false }) ∨
      (s.cmd.type ≠ "raw".toList ∧ ∃ row, s.params.table.lookup s.cmd.protocol = some row ∧
        c = { carrierHz := row.carrierHz, duty := row.duty, invert := false })) →
    f = .frame (pairsOf (packedFrame q)) →
    (s.maxWait = none →
      exec .txSendcmd s = .next { s with
        seq := q
        env := if s.tx.alloc then s.env else (drawAlloc s).2.env
        tx := { alloc := true, busy := false, cfg := some c, buf := packedFrame q, played := 0, level := .low,
                trace := traceBefore s.tx c ++ List.replicate (s.repeats + 1) f ++ [.pinLow] }
        result := .ok
        value := .none }) ∧
    (∀ (m : Nat) (ws more es : List Bool) (e : Bool), s.maxWait = some m →
      s.env.waits = ws ++ more → ws.length = s.repeats + 1 → s.env.engine = e :: es →
      ∃ t, exec .txSendcmd s = .next t ∧ t.seq = q ∧ t.env.waits = more ∧ t.fault = false ∧
        t.result = (if true ∈ ws then .eTimeout else .ok) ∧ t.tx.level = .low ∧ t.tx.cfg = some c ∧
        t.tx.busy = decide (ws.getLast? = some true ∧ e = false) ∧
        t.tx.trace = traceBefore s.tx c ++ List.replicate s.repeats f ++
          (if ws.getLast? = some true ∧ e = false then [] else [f]) ++ [.pinLow])

/-- TX.SENDCMD when the encoder fails makes no invocation at all, and when the encoded sequence is empty every
invocation fails and nothing is transmitted; the pin goes low in both cases, and after every TX.SENDCMD that does not
fault, whatever its result (43_transmit.md R205, R206). A frame still in flight may complete before that (R204), which
is a draw (logs 4 and 6). -/
def Obligations.SendcmdLeavesEmitterOff : Prop :=
  ∀ s : State, s.fault = false →
    (∀ code q, ((encAuto s.params s.cmd = .error code ∧ q = s.seq) ∨
        (encAuto s.params s.cmd = .ok [] ∧ q = [] ∧ code = .eEmptySeq)) →
      (s.tx.busy = false →
        exec .txSendcmd s = .next { s with
          seq := q
          tx := { s.tx with level := .low, trace := s.tx.trace ++ [.pinLow] }
          result := code
          value := .none }) ∧
      (s.tx.busy = true → (drawEngine s).1 = true →
        exec .txSendcmd s = .next { s with
          seq := q
          env := (drawEngine s).2.env
          tx := { s.tx with busy := false, played := 0, level := .low,
                            trace := s.tx.trace ++ [.frame (pairsOf s.tx.buf), .pinLow] }
          result := code
          value := .none }) ∧
      (s.tx.busy = true → (drawEngine s).1 = false →
        exec .txSendcmd s = .next { s with
          seq := q
          env := (drawEngine s).2.env
          tx := { s.tx with level := .low, trace := s.tx.trace ++ [.pinLow] }
          result := code
          value := .none })) ∧
    (∃ t, exec .txSendcmd s = .next t ∧
      (t.fault = false → t.tx.level = .low ∧ t.tx.trace.getLast? = some .pinLow))

/-! ## Receive -/

/-- RX.INIT allocates once: a second call changes nothing; a granted allocation creates the queue, registers the
callback and arms, a refused one is a fault (44_receive.md R220). RX.DEINIT frees all of it and may be called at any time (R231). -/
def Obligations.ReceiveInitAndDeinit : Prop :=
  ∀ s : State, s.fault = false →
    (s.rx.state ≠ .uninit → exec .rxInit s = .next { s with result := .ok, value := .none }) ∧
    (s.rx.state = .uninit → (drawAlloc s).1 = true →
      exec .rxInit s = .next { s with
        env := (drawAlloc s).2.env
        rx := { s.rx with state := .armed, cfg := some s.args.rx, queue := .empty, callback := true }
        result := .ok
        value := .none }) ∧
    (s.rx.state = .uninit → (drawAlloc s).1 = false →
      exec .rxInit s = .next { s with
        env := (drawAlloc s).2.env, fault := true, result := .fHwAlloc, value := .none }) ∧
    (s.rx.state = .uninit → exec .rxDeinit s = .next { s with result := .ok, value := .none }) ∧
    (s.rx.state ≠ .uninit →
      exec .rxDeinit s = .next { s with
        rx := { s.rx with state := .uninit, cfg := none, queue := .absent, callback := false }
        result := .ok
        value := .none })

/-- RX.POLL takes the pending batch whole and leaves the channel as it is; without one it returns none
(44_receive.md R227). -/
def Obligations.PollTakesTheBatch : Prop :=
  ∀ s : State, s.fault = false →
    (s.rx.state = .uninit → exec .rxPoll s = .next { s with result := .eNotInit, value := .none }) ∧
    (∀ b, s.rx.state ≠ .uninit → s.rx.queue = .full b →
      exec .rxPoll s = .next { s with rx := { s.rx with queue := .empty }, result := .ok, value := .batch b }) ∧
    (s.rx.state ≠ .uninit → (∀ b, s.rx.queue ≠ .full b) →
      exec .rxPoll s = .next { s with result := .ok, value := .none })

/-- RX.REARM arms an idle channel whose queue is empty and is refused, changing nothing, in every other state
(44_receive.md R228); RX.DRAIN discards the pending batch and does not rearm (R229); RX.RESTART discards it and arms,
whatever the state (R230). None of them runs before RX.INIT. -/
def Obligations.RearmDrainAndRestart : Prop :=
  ∀ s : State, s.fault = false →
    (s.rx.state = .uninit →
      exec .rxRearm s = .next { s with result := .eNotInit, value := .none } ∧
      exec .rxDrain s = .next { s with result := .eNotInit, value := .none } ∧
      exec .rxRestart s = .next { s with result := .eNotInit, value := .none }) ∧
    (∀ b, s.rx.state ≠ .uninit → s.rx.queue = .full b →
      exec .rxRearm s = .next { s with result := .eBackpressure, value := .none }) ∧
    (s.rx.state = .armed → (∀ b, s.rx.queue ≠ .full b) →
      exec .rxRearm s = .next { s with result := .eBadState, value := .none }) ∧
    (s.rx.state = .idle → (∀ b, s.rx.queue ≠ .full b) →
      exec .rxRearm s = .next { s with rx := { s.rx with state := .armed }, result := .ok, value := .none }) ∧
    (s.rx.state ≠ .uninit → s.rx.queue ≠ .absent →
      exec .rxDrain s = .next { s with rx := { s.rx with queue := .empty }, result := .ok, value := .none } ∧
      exec .rxRestart s = .next { s with
        rx := { s.rx with queue := .empty, state := .armed }, result := .ok, value := .none })

/-- A capture completes only while armed: `RXBUF` is written from index 0, no request is outstanding, and the callback
puts the batch in an empty queue or drops it (44_receive.md R226, 60_exceptions.md R311, R316). That the other entries of
`RXBUF` stay is the model's choice (log 34). Every batch the
reference capture computes is one that R232 admits: 1 to 256 records, truncated only when it fills the buffer (R225). -/
def Obligations.CaptureCompletesOnceArmed : Prop :=
  (∀ (s : State) (b : RawBatch) (rest : List Event), s.fault = false → s.port = none → s.agenda = .rxBatch b :: rest →
      b.wf = true →
      (s.rx.state = .armed → s.rx.callback = true → s.rx.queue = .empty →
        step s = .next { s with
          agenda := rest
          rx := { s.rx with
            buf := b.symbols ++ s.rx.buf.drop b.symbols.length, state := .idle, queue := .full b } }) ∧
      (∀ old, s.rx.state = .armed → s.rx.callback = true → s.rx.queue = .full old →
        step s = .next { s with
          agenda := rest
          rx := { s.rx with buf := b.symbols ++ s.rx.buf.drop b.symbols.length, state := .idle } }) ∧
      (s.rx.state ≠ .armed → step s = .next { s with agenda := rest })) ∧
  (∀ (c : RxConfig) (wave : List Interval) (b : RawBatch), captureOf c wave = some b →
      1 ≤ b.symbols.length ∧ b.symbols.length ≤ 256 ∧ (b.truncated = true → b.symbols.length = 256))

/-- Loopback: a timing sequence of at most 512 elements, seen by an armed receiver whose thresholds its elements
respect, is captured whole and normalises to itself with the last space read as the pad
(45_normalizer_decode.md R250, 44_receive.md R221 to R226). -/
def Obligations.LoopbackCaptureNormalises : Prop :=
  ∀ (s : State) (c : RxConfig) (q : TimingSeq) (rest : List Event),
    s.fault = false → s.port = none → s.agenda = .rxWave (waveOf c.activeLow q) :: rest →
    s.rx.state = .armed → s.rx.callback = true → s.rx.queue = .empty → s.rx.cfg = some c →
    TimingSeq.wf q = true → q ≠ [] → q.length ≤ 512 →
    (∀ d ∈ q.dropLast, c.minPulseNs ≤ 1000 * d ∧ 1000 * d ≤ c.maxPulseNs ∧ 1000 * d < c.idleThresholdNs) →
    ∃ (b : RawBatch) (t : State), step s = .next t ∧ t.rx.queue = .full b ∧ t.rx.state = .idle ∧
      b.truncated = false ∧ normalizeBatch b = q.dropLast ++ [1]

/-! ## Normalizer and decoder -/

/-- NORM: the pairs of the batch in order through APPENDRUN and COALESCE into `SEQ`; a truncated batch is a warning and
`SEQ` is written all the same (45_normalizer_decode.md R250). -/
def Obligations.NormalizeWritesSequence : Prop :=
  ∀ s : State, s.fault = false →
    exec .norm s = .next { s with
      seq := coalesce (appendAll (batchCalls s.args.batch))
      result := if s.args.batch.truncated then .wTruncated else .ok
      value := .none }

/-- DEC.MATCH answers the first row, in table order, whose decoder accepts `SEQ` and whose check passes, and is not
supported when there is none; an empty `SEQ` is refused; `SEQ` is unchanged (45_normalizer_decode.md R253). The decoder
of a row is its family's, and the check is the one of R258 for the row's name. -/
def Obligations.DecodeTakesFirstMatchingRow : Prop :=
  (∀ s : State, s.fault = false →
    (s.seq = [] → exec .decMatch s = .next { s with result := .eEmptySeq, value := .none }) ∧
    (∀ (before after : List (Text × ProtocolSpec)) (name : Text) (row : ProtocolSpec) (data : Nat),
      s.seq ≠ [] → s.params.table = before ++ (name, row) :: after →
      (∀ r ∈ before, ∀ d, decodeRow s.params.decodeTolPct r.2 s.seq = some d →
        validFrame s.params.rc5Layout r.1 d = false) →
      decodeRow s.params.decodeTolPct row s.seq = some data → validFrame s.params.rc5Layout name data = true →
      exec .decMatch s = .next { s with result := .ok, value := .decoded name data row.nbits }) ∧
    (s.seq ≠ [] → (∀ r ∈ s.params.table, ∀ d, decodeRow s.params.decodeTolPct r.2 s.seq = some d →
        validFrame s.params.rc5Layout r.1 d = false) →
      exec .decMatch s = .next { s with result := .eNotSupported, value := .none })) ∧
  (∀ (tol : Nat) (row : ProtocolSpec) (q : List Nat),
    (row.family = .pd → decodeRow tol row q = decPd tol row q) ∧
    (row.family = .pw → decodeRow tol row q = decPw tol row q) ∧
    (row.family = .biphase → decodeRow tol row q = decBiphase tol row q)) ∧
  (∀ (l : Rc5Layout) (d w : Nat),
    (validFrame l "NEC".toList d = true ↔
      d / 2 ^ 8 % 2 ^ 8 = 255 - d % 2 ^ 8 ∧ d / 2 ^ 24 % 2 ^ 8 = 255 - d / 2 ^ 16 % 2 ^ 8) ∧
    (validFrame .listed15 "RC5".toList d = true ↔ d.testBit 14 = true ∧ d.testBit 13 = true) ∧
    (validFrame .std14 "RC5".toList d = true ↔ d.testBit 13 = true) ∧
    (validFrame l "RC6".toList d = true ↔ d / 2 ^ 17 % 2 ^ 3 = 0) ∧
    (w = bitrev 48 d → (validFrame l "Kaseikyo".toList d = true ↔
      w / 2 ^ 40 % 2 ^ 8 = (w / 2 ^ 16 % 2 ^ 8 ^^^ w / 2 ^ 24 % 2 ^ 8 ^^^ w / 2 ^ 32 % 2 ^ 8))) ∧
    (∀ name, name ∉ ["NEC".toList, "RC5".toList, "RC6".toList, "Kaseikyo".toList] → validFrame l name d = true))

/-- The pulse-distance and pulse-width decoders accept exactly the sequences of R255 and R256: the frame's length, every
cell near its nominal values within the tolerance of R254, each bit near one of its two cells and not both; so a
pulse-distance row with one shared mark and no trailer accepts nothing. And they invert their builders, for every
descriptor whose cells fit one element each and are told apart at the tolerance, and every data word: the bits sent come
back (45_normalizer_decode.md R254 to R256). -/
def Obligations.PulseDecodersInvertBuilders : Prop :=
  (∀ tol m n : Nat, near tol m n = true ↔ 100 * (m - n) ≤ tol * n ∧ 100 * (n - m) ≤ tol * n) ∧
  (∀ (tol : Nat) (p : ProtocolSpec) (q : List Nat) (d oneSpace h k : Nat)
      (dec : Nat → ProtocolSpec → List Nat → Option Nat),
    (dec = decPd ∧ oneSpace = p.oneSpace) ∨ (dec = decPw ∧ oneSpace = p.zeroSpace) →
    h = (if p.headerMark ≠ 0 then 2 else 0) → k = h + 2 * p.nbits →
    (dec tol p q = some d ↔
      q.length = k + (if p.trailerMark ≠ 0 then 2 else 0) ∧ d < 2 ^ p.nbits ∧
      (p.headerMark ≠ 0 → cellAt tol p.headerMark p.headerSpace 0 q = true) ∧
      (∀ i, i < p.nbits →
        cellAt tol p.oneMark oneSpace (h + 2 * i) q = bitSent p d p.nbits i ∧
        cellAt tol p.zeroMark p.zeroSpace (h + 2 * i) q = !bitSent p d p.nbits i) ∧
      (p.trailerMark ≠ 0 → near tol (q.getD k 0) p.trailerMark = true))) ∧
  (∀ (tol : Nat) (p : ProtocolSpec) (q : List Nat),
    p.trailerMark = 0 → p.nbits ≠ 0 → p.oneMark = p.zeroMark → decPd tol p q = none) ∧
  ∀ (tol : Nat) (p : ProtocolSpec) (data : Nat),
    1 ≤ p.oneMark → p.oneMark ≤ 65535 → 1 ≤ p.zeroMark → p.zeroMark ≤ 65535 → 1 ≤ p.zeroSpace → p.zeroSpace ≤ 65535 →
    (p.headerMark ≠ 0 → p.headerMark ≤ 65535 ∧ 1 ≤ p.headerSpace ∧ p.headerSpace ≤ 65535) →
    p.trailerMark ≤ 65535 → p.trailerSpace ≤ 65535 →
    (p.trailerMark ≠ 0 → 1 ≤ p.oneSpace → p.oneSpace ≤ 65535 →
      ¬(near tol p.oneMark p.zeroMark = true ∧ near tol p.oneSpace p.zeroSpace = true) →
      ¬(near tol p.zeroMark p.oneMark = true ∧ near tol p.zeroSpace p.oneSpace = true) →
      decPd tol p (famPd p data p.nbits) = some (data % 2 ^ p.nbits)) ∧
    (near tol p.oneMark p.zeroMark = false → near tol p.zeroMark p.oneMark = false →
      decPw tol p (famPw p data p.nbits) = some (data % 2 ^ p.nbits))

/-- The biphase decoder accepts exactly the sequences of R257: the header near its nominal value, in every bit the level
in the middle of the first half other than that of the second, and no mark at or after the end of the last bit. And it
inverts its builder, for every descriptor whose merged half-periods stay below the cap, with a header or a first
half-period that is a mark, and every data word (45_normalizer_decode.md R257). -/
def Obligations.BiphaseDecoderInvertsBuilder : Prop :=
  (∀ (q : List Nat) (t2 : Nat), level2 q t2 = .mark ↔
    ∃ k, k % 2 = 0 ∧ k < q.length ∧ 2 * (q.take k).sum ≤ t2 ∧ t2 < 2 * (q.take (k + 1)).sum) ∧
  (∀ (tol : Nat) (p : ProtocolSpec) (q : List Nat) (d : Nat),
    decBiphase tol p q = some d ↔ ∃ t0,
      (p.headerMark = 0 → t0 = 0) ∧
      (p.headerMark ≠ 0 → ∃ m rest, q = m :: rest ∧ near tol m p.headerMark = true ∧ t0 = m + p.headerSpace) ∧
      d < 2 ^ p.nbits ∧
      (∀ i w, i < p.nbits → w = (if p.doubleIdx = some i then 2 * p.unit else p.unit) →
        level2 q (2 * bitStart p t0 i + w) ≠ level2 q (2 * bitStart p t0 i + 3 * w) ∧
        (bitSent p d p.nbits i = p.oneActiveFirst ↔ level2 q (2 * bitStart p t0 i + w) = .mark)) ∧
      (∀ k, k % 2 = 0 → k < q.length → (q.take k).sum < bitStart p t0 p.nbits)) ∧
  ∀ (tol : Nat) (p : ProtocolSpec) (data : Nat),
    1 ≤ p.unit → p.headerSpace + 3 * p.unit ≤ 65535 → p.headerMark ≤ 65535 →
    (p.headerMark ≠ 0 → 1 ≤ p.headerSpace) →
    (p.headerMark = 0 → p.nbits ≠ 0 → bitSent p data p.nbits 0 = p.oneActiveFirst) →
    decBiphase tol p (famBiphase p data p.nbits) = some (data % 2 ^ p.nbits)

/-- Under the default table a frame of a named protocol decodes to its own name and word: the pulse protocols and
Kaseikyo, with the one exception of an NEC-extended frame that read in NEC's bit order passes the NEC check: it is
reported as NEC, with the word in that order. So each of these encoders, whenever its operands are well formed,
completes, and decoding what it wrote gives its name and a word from which the fields it packed are recovered
(45_normalizer_decode.md R253, R258). -/
def Obligations.NamedPulseFramesDecode : Prop :=
  (∀ (s : State) (l : Rc5Layout) (name : Text) (row : ProtocolSpec) (data : Nat),
    s.fault = false → s.params = paramsFor l → (name, row) ∈ defaultTable l → row.family ≠ .biphase →
    data < 2 ^ row.nbits → validFrame l name data = true → s.seq = fam row data row.nbits →
    exec .decMatch s = .next { s with
      result := .ok
      value :=
        if name = "NECext".toList ∧ validFrame l "NEC".toList (bitrev 32 data) = true then
          .decoded "NEC".toList (bitrev 32 data) 32
        else .decoded name data row.nbits }) ∧
  (∀ (s : State) (l : Rc5Layout), s.fault = false → s.params = paramsFor l →
    (∀ a c, firstByte s.cmd.address = some a → firstByte s.cmd.command = some c →
      RoundTrip l .encNec "NEC".toList 32 (.nec a c) s) ∧
    (∀ a c, hexval (trunc00 s.cmd.address) = some a → hexval (trunc00 s.cmd.command) = some c →
      ∃ t data, exec .encNecext s = .next t ∧ t.result = .ok ∧
        exec .decMatch t = .next { t with
          value :=
            if validFrame l "NEC".toList (bitrev 32 data) = true then .decoded "NEC".toList (bitrev 32 data) 32
            else .decoded "NECext".toList data 32 } ∧
        recover l "NECext".toList data = some (.necext (a % 2 ^ 16) (c % 2 ^ 16))) ∧
    (∀ a c, hexval s.cmd.address = some a → hexval s.cmd.command = some c →
      ndigits s.cmd.address ≤ 4 → ndigits s.cmd.command ≤ 4 →
      RoundTrip l .encSamsung32 "Samsung32".toList 32
        (.samsung (if ndigits s.cmd.address ≤ 2 then 2 ^ 8 * a + a else a)
          (if ndigits s.cmd.command ≤ 2 then 2 ^ 8 * c + c else c)) s) ∧
    (∀ a c, hexval s.cmd.address = some a → hexval s.cmd.command = some c →
      ndigits s.cmd.address ≤ 8 → ndigits s.cmd.command ≤ 8 →
      (∀ i name n, (i, name, n) ∈ [(Instr.encSirc, "SIRC".toList, 12), (.encSirc15, "SIRC15".toList, 15),
          (.encSirc20, "SIRC20".toList, 20)] →
        RoundTrip l i name n (.sirc (bswap32 a % 2 ^ (n - 7)) (bswap32 c % 2 ^ 7)) s) ∧
      RoundTrip l .encKaseikyo "Kaseikyo".toList 48
        (.kaseikyo (bswap32 a / 2 ^ 8 % 2 ^ 16) (bswap32 a / 2 ^ 4 % 2 ^ 4) (bswap32 a % 2 ^ 4)
          (bswap32 c % 2 ^ 10) (bswap32 a / 2 ^ 24 % 2 ^ 2)) s))

/-- Under the default table an RC5 or RC6 frame decodes to its own name and word, for either RC5 layout. So ENC.RC5 and
ENC.RC6, whenever their operands are well formed, complete, and decoding what they wrote gives their name and a word from
which the fields they packed are recovered, of an RC5 command the low seven bits as the field bit tells them
(45_normalizer_decode.md R257, R258). -/
def Obligations.NamedBiphaseFramesDecode : Prop :=
  (∀ (s : State) (l : Rc5Layout) (name : Text) (row : ProtocolSpec) (data : Nat),
    s.fault = false → s.params = paramsFor l → (name, row) ∈ defaultTable l → row.family = .biphase →
    data < 2 ^ row.nbits → validFrame l name data = true → s.seq = fam row data row.nbits →
    exec .decMatch s = .next { s with result := .ok, value := .decoded name data row.nbits }) ∧
  (∀ (s : State) (l : Rc5Layout) (a c field : Nat), s.fault = false → s.params = paramsFor l →
    firstByte s.cmd.address = some a → firstByte s.cmd.command = some c →
    field = (if c ≤ 0x3F then 1 else 0) →
    RoundTrip l .encRc5 "RC5".toList (match l with | .listed15 => 15 | .std14 => 14)
      (.rc5 0 field (a % 2 ^ 5) (c % 2 ^ 6 + 64 * (1 - field))) s ∧
    RoundTrip l .encRc6 "RC6".toList 20 (.rc6 0 a c) s) ∧
  (∀ d field : Nat,
    (field = d / 2 ^ 11 % 2 → recover .listed15 "RC5".toList d =
      some (.rc5 (d / 2 ^ 12 % 2) field (d / 2 ^ 6 % 2 ^ 5) (d % 2 ^ 6 + 64 * (1 - field)))) ∧
    (field = d / 2 ^ 12 % 2 → recover .std14 "RC5".toList d =
      some (.rc5 (d / 2 ^ 11 % 2) field (d / 2 ^ 6 % 2 ^ 5) (d % 2 ^ 6 + 64 * (1 - field)))))

/-! ## Capture session -/

/-- SES.ENTER creates an empty session and starts the receiver, unless it is started already; SES.EXIT destroys it,
empties the catalog, frees the receiver and leaves the recent buffer (46_session.md R270, R275). -/
def Obligations.SessionEnterAndExit : Prop :=
  ∀ s : State, s.fault = false →
    (s.ses.state ≠ .none → exec .sesEnter s = .next { s with result := .eBadState, value := .none }) ∧
    (s.ses.state = .none → s.rx.state ≠ .uninit →
      exec .sesEnter s = .next { s with
        ses := { state := .idle, count := 0, last := [], pending := [] }, result := .ok, value := .none }) ∧
    (s.ses.state = .none → s.rx.state = .uninit → (drawAlloc s).1 = true →
      exec .sesEnter s = .next { s with
        env := (drawAlloc s).2.env
        rx := { s.rx with state := .armed, cfg := some s.args.rx, queue := .empty, callback := true }
        ses := { state := .idle, count := 0, last := [], pending := [] }
        result := .ok
        value := .none }) ∧
    (s.ses.state = .none → s.rx.state = .uninit → (drawAlloc s).1 = false →
      exec .sesEnter s = .next { s with
        env := (drawAlloc s).2.env, fault := true, result := .fHwAlloc, value := .none }) ∧
    (s.ses.state = .none → exec .sesExit s = .next { s with result := .ok, value := .none }) ∧
    (s.ses.state ≠ .none →
      exec .sesExit s = .next { s with
        ses := { state := .none, count := 0, last := [], pending := [] }
        cat := []
        rx :=
          if s.rx.state = .uninit then s.rx
          else { s.rx with state := .uninit, cfg := none, queue := .absent, callback := false }
        result := .ok
        value := .none })

/-- SES.CAPTURE: with no batch nothing happens; a batch that normalises to a sequence is held as text; one that
normalises to nothing is dropped and the receiver rearmed; the truncation warning is passed on (46_session.md R271).
The warning of a dropped batch is an inference (log 10), and so is that a poll refused before RX.INIT counts as no batch
(log 9). -/
def Obligations.SessionCapture : Prop :=
  ∀ s : State, s.fault = false →
    (s.ses.state ≠ .idle → exec .sesCapture s = .next { s with result := .eBadState, value := .none }) ∧
    (s.ses.state = .idle → (s.rx.state = .uninit ∨ ∀ b, s.rx.queue ≠ .full b) →
      exec .sesCapture s = .next { s with result := .ok, value := .none }) ∧
    (∀ b q, s.ses.state = .idle → s.rx.state ≠ .uninit → s.rx.queue = .full b →
      q = coalesce (appendAll (batchCalls b)) → q ≠ [] →
      exec .sesCapture s = .next { s with
        seq := q
        rx := { s.rx with queue := .empty }
        ses := { s.ses with state := .held, last := [' '].intercalate (q.map (Nat.toDigits 10)) }
        result := if b.truncated then .wTruncated else .ok
        value := .none }) ∧
    (∀ b, s.ses.state = .idle → s.rx.state ≠ .uninit → s.rx.queue = .full b →
      coalesce (appendAll (batchCalls b)) = [] →
      exec .sesCapture s = .next { s with
        seq := []
        rx := { s.rx with queue := .empty, state := .armed }
        result := if b.truncated then .wTruncated else .ok
        value := .none })

/-- SES.COMMIT appends the six lines of a raw record and counts it, SES.DISCARD saves nothing; both rearm an idle
channel with an empty queue; a name with a line break and any other state are refused (46_session.md R272, R273). -/
def Obligations.SessionCommitAndDiscard : Prop :=
  ∀ (s : State) (rx : RxUnit), s.fault = false →
    rx = (if s.rx.state = .idle ∧ qFull s.rx = false then { s.rx with state := .armed } else s.rx) →
    (s.ses.state ≠ .held ∨ '\n' ∈ s.cmd.name →
      exec .sesCommit s = .next { s with result := .eBadState, value := .none }) ∧
    (s.ses.state = .held → '\n' ∉ s.cmd.name →
      exec .sesCommit s = .next { s with
        rx := rx
        ses := { state := .idle, count := s.ses.count + 1, last := s.ses.last,
                 pending := s.ses.pending ++ signalText s.params.rawDefaultFreq s.cmd.name s.ses.last }
        result := .ok
        value := .none }) ∧
    (s.ses.state ≠ .held → exec .sesDiscard s = .next { s with result := .eBadState, value := .none }) ∧
    (s.ses.state = .held →
      exec .sesDiscard s = .next { s with
        rx := rx, ses := { s.ses with state := .idle }, result := .ok, value := .none })

/-- SES.FLUSH writes the header lines and the pending text to storage and empties count and text; when storage refuses,
the session is as before; the text is handed to storage in both cases (00_scope.md R11; log 33). Without a committed
signal or outside `IDLE` it is refused (46_session.md R274), and so is a device name with a line break
(93_implementation_defined.md 1.2; log 27). -/
def Obligations.SessionFlush : Prop :=
  ∀ (s : State) (text : Text), s.fault = false →
    text = "Filetype: Bruce IR File\nVersion: 1\n#\n# ".toList ++ s.args.devname ++ "\n".toList ++ s.ses.pending →
    (s.ses.state ≠ .idle ∨ s.ses.count = 0 ∨ '\n' ∈ s.args.devname →
      exec .sesFlush s = .next { s with result := .eBadState, value := .none }) ∧
    (s.ses.state = .idle → s.ses.count ≠ 0 → '\n' ∉ s.args.devname → ∃ files : List (Text × Text),
      (∀ other, other ≠ s.args.path → files.lookup other = s.storage.lookup other) ∧
      ((drawStore s).1 = true →
        files.lookup s.args.path = some text ∧
        exec .sesFlush s = .next { s with
          env := (drawStore s).2.env, storage := files,
          handed := s.handed ++ [{ path := s.args.path, text := text }],
          ses := { s.ses with count := 0, pending := [] }, result := .ok, value := .none }) ∧
      ((drawStore s).1 = false →
        exec .sesFlush s = .next { s with
          env := (drawStore s).2.env, storage := files,
          handed := s.handed ++ [{ path := s.args.path, text := text }],
          result := .eStorage, value := .none }))

/-- The device-profile round trip: what a session commits and flushes, RPL.LOAD of the same file reads back, one raw
command for each committed signal, with the rendered sequence as its data (46_session.md R283). A name comes back
without its outer spaces; names hold no line break and no CR. -/
def Obligations.FlushedFileParsesBack : Prop :=
  ∀ (s t : State) (signals : List (Text × TimingSeq)), s.fault = false →
    (∀ g ∈ signals, '\n' ∉ g.1 ∧ '\r' ∉ g.1) →
    s.ses.pending = signals.flatMap (fun g => signalText s.params.rawDefaultFreq g.1 (render g.2)) →
    exec .sesFlush s = .next t → t.result = .ok → (drawRead t).1 ≠ none →
    ∃ u, exec .rplLoad t = .next u ∧ u.result = .ok ∧
      u.cat = (signals.map (fun g =>
        ({ type := "raw".toList, protocol := [], address := [], command := [], data := render g.2, bits := 32,
           frequency := s.params.rawDefaultFreq, name := trim g.1, path := s.args.path } : Command))).take 100

/-! ## Replay and recent buffer -/

/-- RPL.LOAD keeps the first 100 records of the file, or fails and keeps the catalog (46_session.md R276). The lines are
those between line breaks, a CR before the break removed (R282). Of the lines the reader makes the records of R281,
30_encoding.md R97 and R98: each key sets its field, the value without its outer spaces; a bad number is the default; a
later line of a key replaces the earlier; other lines are ignored; a `#` line ends the record, and emits it only after a
key line; a second `name:` drops the open record; a record without its `#` line is dropped. -/
def Obligations.LoadKeepsHundredRecords : Prop :=
  (∀ s : State, s.fault = false →
    ((drawRead s).1 = none →
      exec .rplLoad s = .next { s with env := (drawRead s).2.env, result := .eStorage, value := .none }) ∧
    (∀ unknown, (drawRead s).1 = some unknown →
      exec .rplLoad s = .next { s with
        env := (drawRead s).2.env
        cat := (parse (linesOf ((s.storage.lookup s.args.path).getD unknown)) s.args.path).take 100
        result := .ok
        value := .none })) ∧
  (∀ (lf : Text) (lines : List Text), lf = "\n".toList ∨ lf = "\r\n".toList →
    (∀ l ∈ lines, '\n' ∉ l ∧ l.getLast? ≠ some '\r') → linesOf (fileOf lf lines) = lines) ∧
  (∀ (path x v a b : Text) (n : Nat) (blank : Command), (∀ c ∈ a ++ b, c = ' ') →
    v.head? ≠ some ' ' → v.getLast? ≠ some ' ' →
    blank = { type := [], protocol := [], address := [], command := [], data := [], bits := 32, frequency := 0,
              name := [], path := path } →
    (∀ (key : String) (c : Command),
      (key, c) ∈ [("name:", { blank with name := v }), ("type:", { blank with type := v }),
        ("protocol:", { blank with protocol := v }), ("address:", { blank with address := v }),
        ("command:", { blank with command := v }), ("data:", { blank with data := v }),
        ("value:", { blank with data := v }), ("state:", { blank with data := v })] →
      parse [key.toList ++ a ++ v ++ b, '#' :: x] path = [c]) ∧
    (v = Nat.toDigits 10 n →
      parse ["frequency:".toList ++ a ++ v ++ b, '#' :: x] path = [{ blank with frequency := n }] ∧
      parse ["bits:".toList ++ a ++ v ++ b, '#' :: x] path = [{ blank with bits := n }]) ∧
    (v = [] ∨ (∃ c ∈ v, c ∉ "0123456789".toList) →
      parse ["frequency:".toList ++ a ++ v ++ b, '#' :: x] path = [{ blank with frequency := 0 }] ∧
      parse ["bits:".toList ++ a ++ v ++ b, '#' :: x] path = [{ blank with bits := 32 }])) ∧
  (∀ (path name type protocol address command data : Text) (hz bits : Nat),
    (∀ v ∈ [name, type, protocol, address, command, data], v.head? ≠ some ' ' ∧ v.getLast? ≠ some ' ') →
    parse ["name:".toList ++ name, "type:".toList ++ type, "protocol:".toList ++ protocol,
        "address:".toList ++ address, "command:".toList ++ command, "data:".toList ++ data,
        "frequency:".toList ++ Nat.toDigits 10 hz, "bits:".toList ++ Nat.toDigits 10 bits, ['#']] path =
      [{ type := type, protocol := protocol, address := address, command := command, data := data, bits := bits,
         frequency := hz, name := name, path := path }]) ∧
  (∀ (path x v w : Text) (before open' after : List Text), (∀ l ∈ open', ¬Terminator l) →
    parse open' path = [] ∧
    parse (open' ++ ('#' :: x) :: after) path = parse (open' ++ [['#']]) path ++ parse after path ∧
    parse (('#' :: x) :: after) path = parse after path ∧
    ((∃ l ∈ open', "name:".toList <+: l) →
      parse (open' ++ ("name:".toList ++ v) :: after) path = parse (("name:".toList ++ v) :: after) path) ∧
    (∀ key : String, key ∈ ["type:", "protocol:", "address:", "command:", "data:", "frequency:", "bits:"] →
      parse (before ++ (key.toList ++ v) :: (key.toList ++ w) :: after) path =
        parse (before ++ (key.toList ++ w) :: after) path) ∧
    (∀ line : Text, ¬Terminator line →
      (∀ key : String, key ∈ ["name:", "type:", "protocol:", "address:", "command:", "data:", "value:", "state:",
        "frequency:", "bits:"] → ¬key.toList <+: line) →
      parse (before ++ line :: after) path = parse (before ++ after) path))

/-- RPL.SELECT loads the operand registers from the catalog entry, ends as TX.SENDCMD ends, and enters the command in
the recent buffer unless the send faulted; an index beyond the catalog is refused (46_session.md R277, R280). -/
def Obligations.SelectSendsAndRemembers : Prop :=
  ∀ s : State, s.fault = false →
    (s.cat.length ≤ s.args.index → exec .rplSelect s = .next { s with result := .eBadState, value := .none }) ∧
    (∀ c, s.cat[s.args.index]? = some c → ∃ t, exec .txSendcmd { s with cmd := c } = .next t ∧
      exec .rplSelect s = .next { t with
        recents :=
          if t.fault = true ∨ ∃ e ∈ s.recents, e.path = c.path then s.recents
          else (c :: s.recents).take 16 })

/-- RPL.SPAMALL of a readable file, the operator quiet: TX.SENDCMD on each record in file order, with no cap and whatever
each send's result, `rec_idx` advanced after each; a fault stops it before `rec_idx` advances; catalog, recent buffer,
session and receive side are untouched (46_session.md R278). An unreadable file changes nothing but the result. -/
def Obligations.SpamallReplaysEveryRecord : Prop :=
  ∀ s : State, s.fault = false →
    ((drawRead s).1 = none →
      exec .rplSpamall s = .next { s with env := (drawRead s).2.env, result := .eStorage, value := .none }) ∧
    (∀ (unknown : Text) (recs : List Command) (more : List (List InputFlags)) (u : State),
      (drawRead s).1 = some unknown →
      recs = parse (linesOf ((s.storage.lookup s.args.path).getD unknown)) s.args.path →
      s.env.boundaries = List.replicate recs.length [] ++ more → s.flags.select = false → s.flags.escape = false →
      u = replayAll recs (replayStart s) →
      exec .rplSpamall s = .next { u with result := if u.fault then .fHwAlloc else .ok, value := .none } ∧
      u.paused = false ∧ u.flags = s.flags ∧ u.cat = s.cat ∧ u.recents = s.recents ∧ u.ses = s.ses ∧ u.rx = s.rx ∧
      (s.tx.alloc = true → u.fault = false) ∧
      (u.fault = false → u.recIdx = recs.length ∧
        u.tx.trace.count .pinLow = s.tx.trace.count .pinLow + recs.length ∧
        ∀ last, recs.getLast? = some last → u.cmd = last) ∧
      (∀ c rest q, recs = c :: rest → encAuto s.params c = .ok q → q ≠ [] →
        s.tx.alloc = false → s.tx.busy = false →
        ((drawAlloc (drawRead s).2).1 = false → u.fault = true ∧ u.recIdx = 0 ∧ u.tx = s.tx) ∧
        ((drawAlloc (drawRead s).2).1 = true → u.fault = false)))

/-- Pause, resume and cancel at a record boundary: after `k` records, cancel ends RPL.SPAMALL with `E_CANCELLED`,
`rec_idx` at `k` and nothing more sent, also while paused; a pause that is resumed changes nothing of the replay
(46_session.md R279, 60_exceptions.md R308). Paused with no further sample it does not end, which the model answers with
its fault (log 17); one sample a turn of the loop is the model's reading (log 18). -/
def Obligations.SpamallStopsAtBoundary : Prop :=
  ∀ (s u : State) (unknown : Text) (recs : List Command) (k : Nat) (samples : List InputFlags)
      (more : List (List InputFlags)), s.fault = false → (drawRead s).1 = some unknown →
    recs = parse (linesOf ((s.storage.lookup s.args.path).getD unknown)) s.args.path → k < recs.length →
    s.env.boundaries = List.replicate k [] ++ samples :: more → s.flags.select = false → s.flags.escape = false →
    u = replayAll (recs.take k) (replayStart s) → u.fault = false →
    (∀ f rest, samples = f :: rest → f.escape = true →
      ∃ t, exec .rplSpamall s = .next t ∧ t.result = .eCancelled ∧ t.recIdx = k ∧ t.paused = false ∧ t.tx = u.tx) ∧
    (∀ f g rest, samples = f :: g :: rest → f.select = true → f.escape = false → g.escape = true →
      ∃ t, exec .rplSpamall s = .next t ∧ t.result = .eCancelled ∧ t.recIdx = k ∧ t.paused = false ∧ t.tx = u.tx) ∧
    (∀ f, samples = [f, f] → f = { next := false, previous := false, select := true, escape := false } →
      more = List.replicate (recs.length - k - 1) [] →
      exec .rplSpamall s =
        exec .rplSpamall { s with env := { s.env with boundaries := List.replicate recs.length [] } }) ∧
    (∀ f, samples = [f] → f.escape = false → f.select = true → exec .rplSpamall s = .fault .pausedForever)

/-- REC.INSERT: a path already there changes nothing; else the command stands in front and the oldest of 16 is evicted;
so inserting commands of distinct paths leaves the newest 16, newest first (46_session.md R280). -/
def Obligations.RecentBufferKeepsNewestSixteen : Prop :=
  (∀ s : State, s.fault = false →
    ((∃ e ∈ s.recents, e.path = s.cmd.path) → exec .recInsert s = .next { s with result := .ok, value := .none }) ∧
    ((∀ e ∈ s.recents, e.path ≠ s.cmd.path) →
      exec .recInsert s = .next { s with
        recents := (s.cmd :: s.recents).take 16, result := .ok, value := .none })) ∧
  (∀ cs : List Command, (cs.map (·.path)).Nodup →
    cs.foldl (fun r c => recInsert c r) [] = cs.reverse.take 16)
end

