-- ==== Sys2Proof/Laws/State.lean ====
section
/-! SUPPORT. One lemma per field per shared update of State, each true by unfolding one update, so that no later proof
unfolds a record update. -/

namespace Sys2Proof.Machine

/-! ## `finish`: only `result` and `value` change -/

@[simp] theorem finish_cmd (e : Ended) : (finish e).cmd = e.st.cmd := rfl
@[simp] theorem finish_seq (e : Ended) : (finish e).seq = e.st.seq := rfl
@[simp] theorem finish_recIdx (e : Ended) : (finish e).recIdx = e.st.recIdx := rfl
@[simp] theorem finish_result (e : Ended) : (finish e).result = e.code := rfl
@[simp] theorem finish_fault (e : Ended) : (finish e).fault = e.st.fault := rfl
@[simp] theorem finish_repeats (e : Ended) : (finish e).repeats = e.st.repeats := rfl
@[simp] theorem finish_maxWait (e : Ended) : (finish e).maxWait = e.st.maxWait := rfl
@[simp] theorem finish_tx (e : Ended) : (finish e).tx = e.st.tx := rfl
@[simp] theorem finish_rx (e : Ended) : (finish e).rx = e.st.rx := rfl
@[simp] theorem finish_ses (e : Ended) : (finish e).ses = e.st.ses := rfl
@[simp] theorem finish_cat (e : Ended) : (finish e).cat = e.st.cat := rfl
@[simp] theorem finish_recents (e : Ended) : (finish e).recents = e.st.recents := rfl
@[simp] theorem finish_paused (e : Ended) : (finish e).paused = e.st.paused := rfl
@[simp] theorem finish_flags (e : Ended) : (finish e).flags = e.st.flags := rfl
@[simp] theorem finish_pinModes (e : Ended) : (finish e).pinModes = e.st.pinModes := rfl
@[simp] theorem finish_storage (e : Ended) : (finish e).storage = e.st.storage := rfl
@[simp] theorem finish_handed (e : Ended) : (finish e).handed = e.st.handed := rfl
@[simp] theorem finish_shown (e : Ended) : (finish e).shown = e.st.shown := rfl
@[simp] theorem finish_port (e : Ended) : (finish e).port = e.st.port := rfl
@[simp] theorem finish_params (e : Ended) : (finish e).params = e.st.params := rfl
@[simp] theorem finish_args (e : Ended) : (finish e).args = e.st.args := rfl
@[simp] theorem finish_value (e : Ended) : (finish e).value = e.value := rfl
@[simp] theorem finish_env (e : Ended) : (finish e).env = e.st.env := rfl
@[simp] theorem finish_agenda (e : Ended) : (finish e).agenda = e.st.agenda := rfl

/-! ## `raise` -/

@[simp] theorem raise_code (c : ResultCode) (s : State) : (raise c s).code = c := rfl
@[simp] theorem raise_st (c : ResultCode) (s : State) : (raise c s).st = s := rfl
@[simp] theorem raise_value (c : ResultCode) (s : State) : (raise c s).value = .none := rfl

/-! ## `done` -/

@[simp] theorem done_code (s : State) : (done s).code = .ok := rfl
@[simp] theorem done_st (s : State) : (done s).st = s := rfl
@[simp] theorem done_value (s : State) : (done s).value = .none := rfl

/-! ## `enterFault`: only `fault` changes -/

@[simp] theorem enterFault_code (s : State) : (enterFault s).code = .fHwAlloc := rfl
@[simp] theorem enterFault_value (s : State) : (enterFault s).value = .none := rfl
@[simp] theorem enterFault_st_cmd (s : State) : (enterFault s).st.cmd = s.cmd := rfl
@[simp] theorem enterFault_st_seq (s : State) : (enterFault s).st.seq = s.seq := rfl
@[simp] theorem enterFault_st_recIdx (s : State) : (enterFault s).st.recIdx = s.recIdx := rfl
@[simp] theorem enterFault_st_result (s : State) : (enterFault s).st.result = s.result := rfl
@[simp] theorem enterFault_st_fault (s : State) : (enterFault s).st.fault = true := rfl
@[simp] theorem enterFault_st_repeats (s : State) : (enterFault s).st.repeats = s.repeats := rfl
@[simp] theorem enterFault_st_maxWait (s : State) : (enterFault s).st.maxWait = s.maxWait := rfl
@[simp] theorem enterFault_st_tx (s : State) : (enterFault s).st.tx = s.tx := rfl
@[simp] theorem enterFault_st_rx (s : State) : (enterFault s).st.rx = s.rx := rfl
@[simp] theorem enterFault_st_ses (s : State) : (enterFault s).st.ses = s.ses := rfl
@[simp] theorem enterFault_st_cat (s : State) : (enterFault s).st.cat = s.cat := rfl
@[simp] theorem enterFault_st_recents (s : State) : (enterFault s).st.recents = s.recents := rfl
@[simp] theorem enterFault_st_paused (s : State) : (enterFault s).st.paused = s.paused := rfl
@[simp] theorem enterFault_st_flags (s : State) : (enterFault s).st.flags = s.flags := rfl
@[simp] theorem enterFault_st_pinModes (s : State) : (enterFault s).st.pinModes = s.pinModes := rfl
@[simp] theorem enterFault_st_storage (s : State) : (enterFault s).st.storage = s.storage := rfl
@[simp] theorem enterFault_st_handed (s : State) : (enterFault s).st.handed = s.handed := rfl
@[simp] theorem enterFault_st_shown (s : State) : (enterFault s).st.shown = s.shown := rfl
@[simp] theorem enterFault_st_port (s : State) : (enterFault s).st.port = s.port := rfl
@[simp] theorem enterFault_st_params (s : State) : (enterFault s).st.params = s.params := rfl
@[simp] theorem enterFault_st_args (s : State) : (enterFault s).st.args = s.args := rfl
@[simp] theorem enterFault_st_value (s : State) : (enterFault s).st.value = s.value := rfl
@[simp] theorem enterFault_st_env (s : State) : (enterFault s).st.env = s.env := rfl
@[simp] theorem enterFault_st_agenda (s : State) : (enterFault s).st.agenda = s.agenda := rfl

/-! ## `driveLow`: only the transmit side changes -/

@[simp] theorem driveLow_cmd (s : State) : (driveLow s).cmd = s.cmd := rfl
@[simp] theorem driveLow_seq (s : State) : (driveLow s).seq = s.seq := rfl
@[simp] theorem driveLow_recIdx (s : State) : (driveLow s).recIdx = s.recIdx := rfl
@[simp] theorem driveLow_result (s : State) : (driveLow s).result = s.result := rfl
@[simp] theorem driveLow_fault (s : State) : (driveLow s).fault = s.fault := rfl
@[simp] theorem driveLow_repeats (s : State) : (driveLow s).repeats = s.repeats := rfl
@[simp] theorem driveLow_maxWait (s : State) : (driveLow s).maxWait = s.maxWait := rfl
@[simp] theorem driveLow_rx (s : State) : (driveLow s).rx = s.rx := rfl
@[simp] theorem driveLow_ses (s : State) : (driveLow s).ses = s.ses := rfl
@[simp] theorem driveLow_cat (s : State) : (driveLow s).cat = s.cat := rfl
@[simp] theorem driveLow_recents (s : State) : (driveLow s).recents = s.recents := rfl
@[simp] theorem driveLow_paused (s : State) : (driveLow s).paused = s.paused := rfl
@[simp] theorem driveLow_flags (s : State) : (driveLow s).flags = s.flags := rfl
@[simp] theorem driveLow_pinModes (s : State) : (driveLow s).pinModes = s.pinModes := rfl
@[simp] theorem driveLow_storage (s : State) : (driveLow s).storage = s.storage := rfl
@[simp] theorem driveLow_handed (s : State) : (driveLow s).handed = s.handed := rfl
@[simp] theorem driveLow_shown (s : State) : (driveLow s).shown = s.shown := rfl
@[simp] theorem driveLow_port (s : State) : (driveLow s).port = s.port := rfl
@[simp] theorem driveLow_params (s : State) : (driveLow s).params = s.params := rfl
@[simp] theorem driveLow_args (s : State) : (driveLow s).args = s.args := rfl
@[simp] theorem driveLow_value (s : State) : (driveLow s).value = s.value := rfl
@[simp] theorem driveLow_env (s : State) : (driveLow s).env = s.env := rfl
@[simp] theorem driveLow_agenda (s : State) : (driveLow s).agenda = s.agenda := rfl
@[simp] theorem driveLow_tx_alloc (s : State) : (driveLow s).tx.alloc = s.tx.alloc := rfl
@[simp] theorem driveLow_tx_busy (s : State) : (driveLow s).tx.busy = s.tx.busy := rfl
@[simp] theorem driveLow_tx_cfg (s : State) : (driveLow s).tx.cfg = s.tx.cfg := rfl
@[simp] theorem driveLow_tx_buf (s : State) : (driveLow s).tx.buf = s.tx.buf := rfl
@[simp] theorem driveLow_tx_played (s : State) : (driveLow s).tx.played = s.tx.played := rfl
@[simp] theorem driveLow_tx_level (s : State) : (driveLow s).tx.level = .low := rfl
@[simp] theorem driveLow_tx_trace (s : State) : (driveLow s).tx.trace = s.tx.trace ++ [.pinLow] := rfl

/-! ## `playPairs`: only the level and the place of the engine change -/

/-- Playing pairs leaves the level of the last one, and moves on by their number (R203). -/
theorem playPairs_eq (tx : TxUnit) (pairs : List (Bool × Nat)) :
    playPairs tx pairs = { tx with
      level := (pairs.getLast?.map (fun p => playLevel p.1)).getD tx.level
      played := tx.played + pairs.length } := by
  induction pairs generalizing tx with
  | nil => rfl
  | cons p rest ih =>
    rw [playPairs, List.foldl_cons]
    refine (ih _).trans ?_
    cases rest with
    | nil => rfl
    | cons r more =>
      rw [List.getLast?_cons_cons]
      cases h : (r :: more).getLast? with
      | none => simp at h
      | some l => simp [Nat.add_comm, Nat.add_left_comm]

@[simp] theorem playPairs_alloc (tx : TxUnit) (l : List (Bool × Nat)) : (playPairs tx l).alloc = tx.alloc := by
  rw [playPairs_eq]

@[simp] theorem playPairs_busy (tx : TxUnit) (l : List (Bool × Nat)) : (playPairs tx l).busy = tx.busy := by
  rw [playPairs_eq]

@[simp] theorem playPairs_cfg (tx : TxUnit) (l : List (Bool × Nat)) : (playPairs tx l).cfg = tx.cfg := by
  rw [playPairs_eq]

@[simp] theorem playPairs_buf (tx : TxUnit) (l : List (Bool × Nat)) : (playPairs tx l).buf = tx.buf := by
  rw [playPairs_eq]

@[simp] theorem playPairs_trace (tx : TxUnit) (l : List (Bool × Nat)) : (playPairs tx l).trace = tx.trace := by
  rw [playPairs_eq]

/-! ## `txComplete`: only the transmit side changes -/

@[simp] theorem txComplete_cmd (s : State) : (txComplete s).cmd = s.cmd := rfl
@[simp] theorem txComplete_seq (s : State) : (txComplete s).seq = s.seq := rfl
@[simp] theorem txComplete_recIdx (s : State) : (txComplete s).recIdx = s.recIdx := rfl
@[simp] theorem txComplete_result (s : State) : (txComplete s).result = s.result := rfl
@[simp] theorem txComplete_fault (s : State) : (txComplete s).fault = s.fault := rfl
@[simp] theorem txComplete_repeats (s : State) : (txComplete s).repeats = s.repeats := rfl
@[simp] theorem txComplete_maxWait (s : State) : (txComplete s).maxWait = s.maxWait := rfl
@[simp] theorem txComplete_rx (s : State) : (txComplete s).rx = s.rx := rfl
@[simp] theorem txComplete_ses (s : State) : (txComplete s).ses = s.ses := rfl
@[simp] theorem txComplete_cat (s : State) : (txComplete s).cat = s.cat := rfl
@[simp] theorem txComplete_recents (s : State) : (txComplete s).recents = s.recents := rfl
@[simp] theorem txComplete_paused (s : State) : (txComplete s).paused = s.paused := rfl
@[simp] theorem txComplete_flags (s : State) : (txComplete s).flags = s.flags := rfl
@[simp] theorem txComplete_pinModes (s : State) : (txComplete s).pinModes = s.pinModes := rfl
@[simp] theorem txComplete_storage (s : State) : (txComplete s).storage = s.storage := rfl
@[simp] theorem txComplete_handed (s : State) : (txComplete s).handed = s.handed := rfl
@[simp] theorem txComplete_shown (s : State) : (txComplete s).shown = s.shown := rfl
@[simp] theorem txComplete_port (s : State) : (txComplete s).port = s.port := rfl
@[simp] theorem txComplete_params (s : State) : (txComplete s).params = s.params := rfl
@[simp] theorem txComplete_args (s : State) : (txComplete s).args = s.args := rfl
@[simp] theorem txComplete_value (s : State) : (txComplete s).value = s.value := rfl
@[simp] theorem txComplete_env (s : State) : (txComplete s).env = s.env := rfl
@[simp] theorem txComplete_agenda (s : State) : (txComplete s).agenda = s.agenda := rfl
@[simp] theorem txComplete_tx_alloc (s : State) : (txComplete s).tx.alloc = s.tx.alloc := by
  simp [txComplete]
@[simp] theorem txComplete_tx_busy (s : State) : (txComplete s).tx.busy = false := rfl
@[simp] theorem txComplete_tx_cfg (s : State) : (txComplete s).tx.cfg = s.tx.cfg := by
  simp [txComplete]
@[simp] theorem txComplete_tx_buf (s : State) : (txComplete s).tx.buf = s.tx.buf := by
  simp [txComplete]
@[simp] theorem txComplete_tx_level (s : State) : (txComplete s).tx.level = .idleLevel := rfl
@[simp] theorem txComplete_tx_played (s : State) : (txComplete s).tx.played = 0 := rfl
@[simp] theorem txComplete_tx_trace (s : State) : (txComplete s).tx.trace = s.tx.trace ++ [.frame (pairsOf s.tx.buf)] := by
  simp [txComplete]

/-! ## `drawAlloc`: only `env` changes -/

@[simp] theorem drawAlloc_cmd (s : State) : (drawAlloc s).2.cmd = s.cmd := rfl
@[simp] theorem drawAlloc_seq (s : State) : (drawAlloc s).2.seq = s.seq := rfl
@[simp] theorem drawAlloc_recIdx (s : State) : (drawAlloc s).2.recIdx = s.recIdx := rfl
@[simp] theorem drawAlloc_result (s : State) : (drawAlloc s).2.result = s.result := rfl
@[simp] theorem drawAlloc_fault (s : State) : (drawAlloc s).2.fault = s.fault := rfl
@[simp] theorem drawAlloc_repeats (s : State) : (drawAlloc s).2.repeats = s.repeats := rfl
@[simp] theorem drawAlloc_maxWait (s : State) : (drawAlloc s).2.maxWait = s.maxWait := rfl
@[simp] theorem drawAlloc_tx (s : State) : (drawAlloc s).2.tx = s.tx := rfl
@[simp] theorem drawAlloc_rx (s : State) : (drawAlloc s).2.rx = s.rx := rfl
@[simp] theorem drawAlloc_ses (s : State) : (drawAlloc s).2.ses = s.ses := rfl
@[simp] theorem drawAlloc_cat (s : State) : (drawAlloc s).2.cat = s.cat := rfl
@[simp] theorem drawAlloc_recents (s : State) : (drawAlloc s).2.recents = s.recents := rfl
@[simp] theorem drawAlloc_paused (s : State) : (drawAlloc s).2.paused = s.paused := rfl
@[simp] theorem drawAlloc_flags (s : State) : (drawAlloc s).2.flags = s.flags := rfl
@[simp] theorem drawAlloc_pinModes (s : State) : (drawAlloc s).2.pinModes = s.pinModes := rfl
@[simp] theorem drawAlloc_storage (s : State) : (drawAlloc s).2.storage = s.storage := rfl
@[simp] theorem drawAlloc_handed (s : State) : (drawAlloc s).2.handed = s.handed := rfl
@[simp] theorem drawAlloc_shown (s : State) : (drawAlloc s).2.shown = s.shown := rfl
@[simp] theorem drawAlloc_port (s : State) : (drawAlloc s).2.port = s.port := rfl
@[simp] theorem drawAlloc_params (s : State) : (drawAlloc s).2.params = s.params := rfl
@[simp] theorem drawAlloc_args (s : State) : (drawAlloc s).2.args = s.args := rfl
@[simp] theorem drawAlloc_value (s : State) : (drawAlloc s).2.value = s.value := rfl
@[simp] theorem drawAlloc_agenda (s : State) : (drawAlloc s).2.agenda = s.agenda := rfl

/-! ## `drawWait`: only `env` changes -/

@[simp] theorem drawWait_cmd (s : State) : (drawWait s).2.cmd = s.cmd := rfl
@[simp] theorem drawWait_seq (s : State) : (drawWait s).2.seq = s.seq := rfl
@[simp] theorem drawWait_recIdx (s : State) : (drawWait s).2.recIdx = s.recIdx := rfl
@[simp] theorem drawWait_result (s : State) : (drawWait s).2.result = s.result := rfl
@[simp] theorem drawWait_fault (s : State) : (drawWait s).2.fault = s.fault := rfl
@[simp] theorem drawWait_repeats (s : State) : (drawWait s).2.repeats = s.repeats := rfl
@[simp] theorem drawWait_maxWait (s : State) : (drawWait s).2.maxWait = s.maxWait := rfl
@[simp] theorem drawWait_tx (s : State) : (drawWait s).2.tx = s.tx := rfl
@[simp] theorem drawWait_rx (s : State) : (drawWait s).2.rx = s.rx := rfl
@[simp] theorem drawWait_ses (s : State) : (drawWait s).2.ses = s.ses := rfl
@[simp] theorem drawWait_cat (s : State) : (drawWait s).2.cat = s.cat := rfl
@[simp] theorem drawWait_recents (s : State) : (drawWait s).2.recents = s.recents := rfl
@[simp] theorem drawWait_paused (s : State) : (drawWait s).2.paused = s.paused := rfl
@[simp] theorem drawWait_flags (s : State) : (drawWait s).2.flags = s.flags := rfl
@[simp] theorem drawWait_pinModes (s : State) : (drawWait s).2.pinModes = s.pinModes := rfl
@[simp] theorem drawWait_storage (s : State) : (drawWait s).2.storage = s.storage := rfl
@[simp] theorem drawWait_handed (s : State) : (drawWait s).2.handed = s.handed := rfl
@[simp] theorem drawWait_shown (s : State) : (drawWait s).2.shown = s.shown := rfl
@[simp] theorem drawWait_port (s : State) : (drawWait s).2.port = s.port := rfl
@[simp] theorem drawWait_params (s : State) : (drawWait s).2.params = s.params := rfl
@[simp] theorem drawWait_args (s : State) : (drawWait s).2.args = s.args := rfl
@[simp] theorem drawWait_value (s : State) : (drawWait s).2.value = s.value := rfl
@[simp] theorem drawWait_agenda (s : State) : (drawWait s).2.agenda = s.agenda := rfl

/-! ## `drawEngine`: only `env` changes -/

@[simp] theorem drawEngine_cmd (s : State) : (drawEngine s).2.cmd = s.cmd := rfl
@[simp] theorem drawEngine_seq (s : State) : (drawEngine s).2.seq = s.seq := rfl
@[simp] theorem drawEngine_recIdx (s : State) : (drawEngine s).2.recIdx = s.recIdx := rfl
@[simp] theorem drawEngine_result (s : State) : (drawEngine s).2.result = s.result := rfl
@[simp] theorem drawEngine_fault (s : State) : (drawEngine s).2.fault = s.fault := rfl
@[simp] theorem drawEngine_repeats (s : State) : (drawEngine s).2.repeats = s.repeats := rfl
@[simp] theorem drawEngine_maxWait (s : State) : (drawEngine s).2.maxWait = s.maxWait := rfl
@[simp] theorem drawEngine_tx (s : State) : (drawEngine s).2.tx = s.tx := rfl
@[simp] theorem drawEngine_rx (s : State) : (drawEngine s).2.rx = s.rx := rfl
@[simp] theorem drawEngine_ses (s : State) : (drawEngine s).2.ses = s.ses := rfl
@[simp] theorem drawEngine_cat (s : State) : (drawEngine s).2.cat = s.cat := rfl
@[simp] theorem drawEngine_recents (s : State) : (drawEngine s).2.recents = s.recents := rfl
@[simp] theorem drawEngine_paused (s : State) : (drawEngine s).2.paused = s.paused := rfl
@[simp] theorem drawEngine_flags (s : State) : (drawEngine s).2.flags = s.flags := rfl
@[simp] theorem drawEngine_pinModes (s : State) : (drawEngine s).2.pinModes = s.pinModes := rfl
@[simp] theorem drawEngine_storage (s : State) : (drawEngine s).2.storage = s.storage := rfl
@[simp] theorem drawEngine_handed (s : State) : (drawEngine s).2.handed = s.handed := rfl
@[simp] theorem drawEngine_shown (s : State) : (drawEngine s).2.shown = s.shown := rfl
@[simp] theorem drawEngine_port (s : State) : (drawEngine s).2.port = s.port := rfl
@[simp] theorem drawEngine_params (s : State) : (drawEngine s).2.params = s.params := rfl
@[simp] theorem drawEngine_args (s : State) : (drawEngine s).2.args = s.args := rfl
@[simp] theorem drawEngine_value (s : State) : (drawEngine s).2.value = s.value := rfl
@[simp] theorem drawEngine_agenda (s : State) : (drawEngine s).2.agenda = s.agenda := rfl

/-! ## `drawPlays`: only `env` changes -/

@[simp] theorem drawPlays_cmd (s : State) : (drawPlays s).2.cmd = s.cmd := rfl
@[simp] theorem drawPlays_seq (s : State) : (drawPlays s).2.seq = s.seq := rfl
@[simp] theorem drawPlays_recIdx (s : State) : (drawPlays s).2.recIdx = s.recIdx := rfl
@[simp] theorem drawPlays_result (s : State) : (drawPlays s).2.result = s.result := rfl
@[simp] theorem drawPlays_fault (s : State) : (drawPlays s).2.fault = s.fault := rfl
@[simp] theorem drawPlays_repeats (s : State) : (drawPlays s).2.repeats = s.repeats := rfl
@[simp] theorem drawPlays_maxWait (s : State) : (drawPlays s).2.maxWait = s.maxWait := rfl
@[simp] theorem drawPlays_tx (s : State) : (drawPlays s).2.tx = s.tx := rfl
@[simp] theorem drawPlays_rx (s : State) : (drawPlays s).2.rx = s.rx := rfl
@[simp] theorem drawPlays_ses (s : State) : (drawPlays s).2.ses = s.ses := rfl
@[simp] theorem drawPlays_cat (s : State) : (drawPlays s).2.cat = s.cat := rfl
@[simp] theorem drawPlays_recents (s : State) : (drawPlays s).2.recents = s.recents := rfl
@[simp] theorem drawPlays_paused (s : State) : (drawPlays s).2.paused = s.paused := rfl
@[simp] theorem drawPlays_flags (s : State) : (drawPlays s).2.flags = s.flags := rfl
@[simp] theorem drawPlays_pinModes (s : State) : (drawPlays s).2.pinModes = s.pinModes := rfl
@[simp] theorem drawPlays_storage (s : State) : (drawPlays s).2.storage = s.storage := rfl
@[simp] theorem drawPlays_handed (s : State) : (drawPlays s).2.handed = s.handed := rfl
@[simp] theorem drawPlays_shown (s : State) : (drawPlays s).2.shown = s.shown := rfl
@[simp] theorem drawPlays_port (s : State) : (drawPlays s).2.port = s.port := rfl
@[simp] theorem drawPlays_params (s : State) : (drawPlays s).2.params = s.params := rfl
@[simp] theorem drawPlays_args (s : State) : (drawPlays s).2.args = s.args := rfl
@[simp] theorem drawPlays_value (s : State) : (drawPlays s).2.value = s.value := rfl
@[simp] theorem drawPlays_agenda (s : State) : (drawPlays s).2.agenda = s.agenda := rfl

/-! ## `drawStore`: only `env` changes -/

@[simp] theorem drawStore_cmd (s : State) : (drawStore s).2.cmd = s.cmd := rfl
@[simp] theorem drawStore_seq (s : State) : (drawStore s).2.seq = s.seq := rfl
@[simp] theorem drawStore_recIdx (s : State) : (drawStore s).2.recIdx = s.recIdx := rfl
@[simp] theorem drawStore_result (s : State) : (drawStore s).2.result = s.result := rfl
@[simp] theorem drawStore_fault (s : State) : (drawStore s).2.fault = s.fault := rfl
@[simp] theorem drawStore_repeats (s : State) : (drawStore s).2.repeats = s.repeats := rfl
@[simp] theorem drawStore_maxWait (s : State) : (drawStore s).2.maxWait = s.maxWait := rfl
@[simp] theorem drawStore_tx (s : State) : (drawStore s).2.tx = s.tx := rfl
@[simp] theorem drawStore_rx (s : State) : (drawStore s).2.rx = s.rx := rfl
@[simp] theorem drawStore_ses (s : State) : (drawStore s).2.ses = s.ses := rfl
@[simp] theorem drawStore_cat (s : State) : (drawStore s).2.cat = s.cat := rfl
@[simp] theorem drawStore_recents (s : State) : (drawStore s).2.recents = s.recents := rfl
@[simp] theorem drawStore_paused (s : State) : (drawStore s).2.paused = s.paused := rfl
@[simp] theorem drawStore_flags (s : State) : (drawStore s).2.flags = s.flags := rfl
@[simp] theorem drawStore_pinModes (s : State) : (drawStore s).2.pinModes = s.pinModes := rfl
@[simp] theorem drawStore_storage (s : State) : (drawStore s).2.storage = s.storage := rfl
@[simp] theorem drawStore_handed (s : State) : (drawStore s).2.handed = s.handed := rfl
@[simp] theorem drawStore_shown (s : State) : (drawStore s).2.shown = s.shown := rfl
@[simp] theorem drawStore_port (s : State) : (drawStore s).2.port = s.port := rfl
@[simp] theorem drawStore_params (s : State) : (drawStore s).2.params = s.params := rfl
@[simp] theorem drawStore_args (s : State) : (drawStore s).2.args = s.args := rfl
@[simp] theorem drawStore_value (s : State) : (drawStore s).2.value = s.value := rfl
@[simp] theorem drawStore_agenda (s : State) : (drawStore s).2.agenda = s.agenda := rfl

/-! ## `drawRead`: only `env` changes -/

@[simp] theorem drawRead_cmd (s : State) : (drawRead s).2.cmd = s.cmd := rfl
@[simp] theorem drawRead_seq (s : State) : (drawRead s).2.seq = s.seq := rfl
@[simp] theorem drawRead_recIdx (s : State) : (drawRead s).2.recIdx = s.recIdx := rfl
@[simp] theorem drawRead_result (s : State) : (drawRead s).2.result = s.result := rfl
@[simp] theorem drawRead_fault (s : State) : (drawRead s).2.fault = s.fault := rfl
@[simp] theorem drawRead_repeats (s : State) : (drawRead s).2.repeats = s.repeats := rfl
@[simp] theorem drawRead_maxWait (s : State) : (drawRead s).2.maxWait = s.maxWait := rfl
@[simp] theorem drawRead_tx (s : State) : (drawRead s).2.tx = s.tx := rfl
@[simp] theorem drawRead_rx (s : State) : (drawRead s).2.rx = s.rx := rfl
@[simp] theorem drawRead_ses (s : State) : (drawRead s).2.ses = s.ses := rfl
@[simp] theorem drawRead_cat (s : State) : (drawRead s).2.cat = s.cat := rfl
@[simp] theorem drawRead_recents (s : State) : (drawRead s).2.recents = s.recents := rfl
@[simp] theorem drawRead_paused (s : State) : (drawRead s).2.paused = s.paused := rfl
@[simp] theorem drawRead_flags (s : State) : (drawRead s).2.flags = s.flags := rfl
@[simp] theorem drawRead_pinModes (s : State) : (drawRead s).2.pinModes = s.pinModes := rfl
@[simp] theorem drawRead_storage (s : State) : (drawRead s).2.storage = s.storage := rfl
@[simp] theorem drawRead_handed (s : State) : (drawRead s).2.handed = s.handed := rfl
@[simp] theorem drawRead_shown (s : State) : (drawRead s).2.shown = s.shown := rfl
@[simp] theorem drawRead_port (s : State) : (drawRead s).2.port = s.port := rfl
@[simp] theorem drawRead_params (s : State) : (drawRead s).2.params = s.params := rfl
@[simp] theorem drawRead_args (s : State) : (drawRead s).2.args = s.args := rfl
@[simp] theorem drawRead_value (s : State) : (drawRead s).2.value = s.value := rfl
@[simp] theorem drawRead_agenda (s : State) : (drawRead s).2.agenda = s.agenda := rfl

/-! ## `drawBoundary`: only `env` changes -/

@[simp] theorem drawBoundary_cmd (s : State) : (drawBoundary s).2.cmd = s.cmd := rfl
@[simp] theorem drawBoundary_seq (s : State) : (drawBoundary s).2.seq = s.seq := rfl
@[simp] theorem drawBoundary_recIdx (s : State) : (drawBoundary s).2.recIdx = s.recIdx := rfl
@[simp] theorem drawBoundary_result (s : State) : (drawBoundary s).2.result = s.result := rfl
@[simp] theorem drawBoundary_fault (s : State) : (drawBoundary s).2.fault = s.fault := rfl
@[simp] theorem drawBoundary_repeats (s : State) : (drawBoundary s).2.repeats = s.repeats := rfl
@[simp] theorem drawBoundary_maxWait (s : State) : (drawBoundary s).2.maxWait = s.maxWait := rfl
@[simp] theorem drawBoundary_tx (s : State) : (drawBoundary s).2.tx = s.tx := rfl
@[simp] theorem drawBoundary_rx (s : State) : (drawBoundary s).2.rx = s.rx := rfl
@[simp] theorem drawBoundary_ses (s : State) : (drawBoundary s).2.ses = s.ses := rfl
@[simp] theorem drawBoundary_cat (s : State) : (drawBoundary s).2.cat = s.cat := rfl
@[simp] theorem drawBoundary_recents (s : State) : (drawBoundary s).2.recents = s.recents := rfl
@[simp] theorem drawBoundary_paused (s : State) : (drawBoundary s).2.paused = s.paused := rfl
@[simp] theorem drawBoundary_flags (s : State) : (drawBoundary s).2.flags = s.flags := rfl
@[simp] theorem drawBoundary_pinModes (s : State) : (drawBoundary s).2.pinModes = s.pinModes := rfl
@[simp] theorem drawBoundary_storage (s : State) : (drawBoundary s).2.storage = s.storage := rfl
@[simp] theorem drawBoundary_handed (s : State) : (drawBoundary s).2.handed = s.handed := rfl
@[simp] theorem drawBoundary_shown (s : State) : (drawBoundary s).2.shown = s.shown := rfl
@[simp] theorem drawBoundary_port (s : State) : (drawBoundary s).2.port = s.port := rfl
@[simp] theorem drawBoundary_params (s : State) : (drawBoundary s).2.params = s.params := rfl
@[simp] theorem drawBoundary_args (s : State) : (drawBoundary s).2.args = s.args := rfl
@[simp] theorem drawBoundary_value (s : State) : (drawBoundary s).2.value = s.value := rfl
@[simp] theorem drawBoundary_agenda (s : State) : (drawBoundary s).2.agenda = s.agenda := rfl

/-! ## `drawChoice`: only `env` changes -/

@[simp] theorem drawChoice_cmd (s : State) : (drawChoice s).2.cmd = s.cmd := rfl
@[simp] theorem drawChoice_seq (s : State) : (drawChoice s).2.seq = s.seq := rfl
@[simp] theorem drawChoice_recIdx (s : State) : (drawChoice s).2.recIdx = s.recIdx := rfl
@[simp] theorem drawChoice_result (s : State) : (drawChoice s).2.result = s.result := rfl
@[simp] theorem drawChoice_fault (s : State) : (drawChoice s).2.fault = s.fault := rfl
@[simp] theorem drawChoice_repeats (s : State) : (drawChoice s).2.repeats = s.repeats := rfl
@[simp] theorem drawChoice_maxWait (s : State) : (drawChoice s).2.maxWait = s.maxWait := rfl
@[simp] theorem drawChoice_tx (s : State) : (drawChoice s).2.tx = s.tx := rfl
@[simp] theorem drawChoice_rx (s : State) : (drawChoice s).2.rx = s.rx := rfl
@[simp] theorem drawChoice_ses (s : State) : (drawChoice s).2.ses = s.ses := rfl
@[simp] theorem drawChoice_cat (s : State) : (drawChoice s).2.cat = s.cat := rfl
@[simp] theorem drawChoice_recents (s : State) : (drawChoice s).2.recents = s.recents := rfl
@[simp] theorem drawChoice_paused (s : State) : (drawChoice s).2.paused = s.paused := rfl
@[simp] theorem drawChoice_flags (s : State) : (drawChoice s).2.flags = s.flags := rfl
@[simp] theorem drawChoice_pinModes (s : State) : (drawChoice s).2.pinModes = s.pinModes := rfl
@[simp] theorem drawChoice_storage (s : State) : (drawChoice s).2.storage = s.storage := rfl
@[simp] theorem drawChoice_handed (s : State) : (drawChoice s).2.handed = s.handed := rfl
@[simp] theorem drawChoice_shown (s : State) : (drawChoice s).2.shown = s.shown := rfl
@[simp] theorem drawChoice_port (s : State) : (drawChoice s).2.port = s.port := rfl
@[simp] theorem drawChoice_params (s : State) : (drawChoice s).2.params = s.params := rfl
@[simp] theorem drawChoice_args (s : State) : (drawChoice s).2.args = s.args := rfl
@[simp] theorem drawChoice_value (s : State) : (drawChoice s).2.value = s.value := rfl
@[simp] theorem drawChoice_agenda (s : State) : (drawChoice s).2.agenda = s.agenda := rfl

/-! ## `drawText`: only `env` changes -/

@[simp] theorem drawText_cmd (s : State) : (drawText s).2.cmd = s.cmd := rfl
@[simp] theorem drawText_seq (s : State) : (drawText s).2.seq = s.seq := rfl
@[simp] theorem drawText_recIdx (s : State) : (drawText s).2.recIdx = s.recIdx := rfl
@[simp] theorem drawText_result (s : State) : (drawText s).2.result = s.result := rfl
@[simp] theorem drawText_fault (s : State) : (drawText s).2.fault = s.fault := rfl
@[simp] theorem drawText_repeats (s : State) : (drawText s).2.repeats = s.repeats := rfl
@[simp] theorem drawText_maxWait (s : State) : (drawText s).2.maxWait = s.maxWait := rfl
@[simp] theorem drawText_tx (s : State) : (drawText s).2.tx = s.tx := rfl
@[simp] theorem drawText_rx (s : State) : (drawText s).2.rx = s.rx := rfl
@[simp] theorem drawText_ses (s : State) : (drawText s).2.ses = s.ses := rfl
@[simp] theorem drawText_cat (s : State) : (drawText s).2.cat = s.cat := rfl
@[simp] theorem drawText_recents (s : State) : (drawText s).2.recents = s.recents := rfl
@[simp] theorem drawText_paused (s : State) : (drawText s).2.paused = s.paused := rfl
@[simp] theorem drawText_flags (s : State) : (drawText s).2.flags = s.flags := rfl
@[simp] theorem drawText_pinModes (s : State) : (drawText s).2.pinModes = s.pinModes := rfl
@[simp] theorem drawText_storage (s : State) : (drawText s).2.storage = s.storage := rfl
@[simp] theorem drawText_handed (s : State) : (drawText s).2.handed = s.handed := rfl
@[simp] theorem drawText_shown (s : State) : (drawText s).2.shown = s.shown := rfl
@[simp] theorem drawText_port (s : State) : (drawText s).2.port = s.port := rfl
@[simp] theorem drawText_params (s : State) : (drawText s).2.params = s.params := rfl
@[simp] theorem drawText_args (s : State) : (drawText s).2.args = s.args := rfl
@[simp] theorem drawText_value (s : State) : (drawText s).2.value = s.value := rfl
@[simp] theorem drawText_agenda (s : State) : (drawText s).2.agenda = s.agenda := rfl

/-! ## The answer of a draw: the script's head, or the free value -/

@[simp] theorem nextAnswer_cons {α : Type} (a : α) (rest : List α) (free : Nat → α) (n : Nat) :
    nextAnswer (a :: rest) free n = (a, rest, n) := rfl

@[simp] theorem nextAnswer_nil {α : Type} (free : Nat → α) (n : Nat) :
    nextAnswer [] free n = (free n, [], n + 1) := rfl

end Sys2Proof.Machine
end

