-- ==== Sys2Proof/Laws/Ops.lean ====
section
/-! SUPPORT. For each shared operation, one lemma that says everything it can do; later proofs cite it instead of
unfolding the operation. -/

namespace Sys2Proof.Machine

/-! ## Operations -/

theorem issue_eq (body : State → Ended) (s : State) : issue body s = .next (operate body s) := rfl

/-- An operation is refused by a faulted block or runs its body (R309). -/
theorem operate_cases (body : State → Ended) (s : State) :
    (s.fault = true ∧ operate body s = finish (raise .fFaulted s)) ∨
    (s.fault = false ∧ operate body s = finish (body s)) := by
  unfold operate
  cases s.fault <;> simp

@[simp] theorem operate_of_fault (body : State → Ended) {s : State} (h : s.fault = true) :
    operate body s = finish (raise .fFaulted s) := by
  unfold operate
  simp [h]

@[simp] theorem operate_of_usable (body : State → Ended) {s : State} (h : s.fault = false) :
    operate body s = finish (body s) := by
  unfold operate
  simp [h]

theorem Ended.faulted_iff (e : Ended) : e.faulted = true ↔ e.code = .fHwAlloc ∨ e.code = .fFaulted := by
  unfold Ended.faulted
  cases e.code <;> simp [resultKind]

@[simp] theorem done_faulted (s : State) : (done s).faulted = false := rfl

@[simp] theorem enterFault_faulted (s : State) : (enterFault s).faulted = true := rfl

/-! ## The order of paths -/

theorem textLt_irrefl : ∀ a : Text, textLt a a = false
  | [] => rfl
  | c :: a => by simp [textLt, textLt_irrefl a]

theorem Char.eq_of_toNat {a b : Char} (h : a.toNat = b.toNat) : a = b :=
  Char.ext (UInt32.toNat_inj.mp h)

/-- Two different paths are ordered one way or the other. -/
theorem textLt_connected : ∀ {a b : Text}, a ≠ b → textLt a b = false → textLt b a = true
  | [], [], h, _ => absurd rfl h
  | [], _ :: _, _, h => by simp [textLt] at h
  | _ :: _, [], _, _ => rfl
  | a :: as, b :: bs, hne, h => by
    by_cases hab : a = b
    · subst hab
      have hne' : as ≠ bs := fun h' => hne (by rw [h'])
      simp only [textLt, if_true] at h ⊢
      exact textLt_connected hne' h
    · simp only [textLt, if_neg hab, if_neg (Ne.symm hab), decide_eq_true_eq, decide_eq_false_iff_not] at h ⊢
      have : a.toNat ≠ b.toNat := fun h' => hab (Char.eq_of_toNat h')
      omega

/-! ## Tables in canonical form -/

/-- A table's keys strictly rise: every neighbour pair is ordered. -/
theorem tableWf_cons {κ β : Type} {lt : κ → κ → Bool} {a : κ × β} {rest : List (κ × β)}
    (h : tableWf lt (a :: rest) = true) : tableWf lt rest = true := by
  cases rest with
  | nil => rfl
  | cons b rest => simp [tableWf] at h; exact h.2

/-- The head of a written table is the old head or the written key. -/
theorem tablePut_head {κ β : Type} [DecidableEq κ] {lt : κ → κ → Bool} (k : κ) (v : Option β) (a : κ)
    (htr : ∀ x y z, lt x y = true → lt y z = true → lt x z = true)
    (t : List (κ × β)) (hk : lt a k = true) :
    (∀ e ∈ t.head?, lt a e.1 = true) → tableWf lt t = true →
    ∀ e ∈ (tablePut lt k v t).head?, lt a e.1 = true := by
  intro hh hw e he
  cases t with
  | nil => cases v <;> simp [tablePut] at he; subst he; exact hk
  | cons f rest =>
    have hf : lt a f.1 = true := hh f (by simp)
    by_cases h1 : f.1 = k
    · cases v with
      | some b => simp [tablePut, h1] at he; subst he; exact hk
      | none =>
        simp [tablePut, h1] at he
        cases rest with
        | nil => simp at he
        | cons g rest =>
          simp at he
          subst he
          simp [tableWf] at hw
          exact htr _ _ _ hf hw.1
    · by_cases h2 : lt k f.1 = true
      · cases v with
        | some b => simp [tablePut, h1, h2] at he; subst he; exact hk
        | none => simp [tablePut, h1, h2] at he; subst he; exact hf
      · simp [tablePut, h1, h2] at he; subst he; exact hf

/-- Prepending an entry smaller than the head keeps the form. -/
theorem tableWf_of_head {κ β : Type} {lt : κ → κ → Bool} {a : κ × β} {t : List (κ × β)}
    (hh : ∀ e ∈ t.head?, lt a.1 e.1 = true) (hw : tableWf lt t = true) : tableWf lt (a :: t) = true := by
  cases t with
  | nil => rfl
  | cons b rest => simp [tableWf]; exact ⟨hh b (by simp), hw⟩

/-- Writing keeps a table's canonical form, under any strict linear order of the keys. -/
theorem tablePut_wf {κ β : Type} [DecidableEq κ] {lt : κ → κ → Bool} (k : κ) (v : Option β)
    (htr : ∀ x y z, lt x y = true → lt y z = true → lt x z = true)
    (hco : ∀ x y, x ≠ y → lt x y = false → lt y x = true) :
    ∀ t : List (κ × β), tableWf lt t = true → tableWf lt (tablePut lt k v t) = true
  | [], _ => by cases v <;> rfl
  | f :: rest, hw => by
    by_cases h1 : f.1 = k
    · cases v with
      | some b =>
        have hr := tableWf_cons hw
        simp only [tablePut, h1, if_true]
        refine tableWf_of_head ?_ hr
        intro e he
        cases rest with
        | nil => simp at he
        | cons g rest => simp at he; subst he; simp [tableWf, h1] at hw; exact hw.1
      | none => simpa [tablePut, h1] using tableWf_cons hw
    · by_cases h2 : lt k f.1 = true
      · cases v with
        | some b => simp only [tablePut, h1, if_false, h2, if_true]; exact tableWf_of_head (by simpa using h2) hw
        | none => simpa [tablePut, h1, h2] using hw
      · have hr := tableWf_cons hw
        have hlt : lt f.1 k = true := hco k f.1 (Ne.symm h1) (by simpa using h2)
        simp only [tablePut, h1, if_false, h2, Bool.false_eq_true]
        refine tableWf_of_head ?_ (tablePut_wf k v htr hco rest hr)
        refine tablePut_head k v f.1 htr rest hlt ?_ hr
        intro e he
        cases rest with
        | nil => simp at he
        | cons g rest => simp at he; subst he; simp [tableWf] at hw; exact hw.1

theorem textLt_trans : ∀ {a b c : Text}, textLt a b = true → textLt b c = true → textLt a c = true
  | [], _, [], _, h2 => by cases ‹Text› <;> simp [textLt] at h2
  | [], _, _ :: _, _, _ => rfl
  | _ :: _, [], _, h1, _ => by simp [textLt] at h1
  | _ :: _, _ :: _, [], _, h2 => by simp [textLt] at h2
  | a :: as, b :: bs, c :: cs, h1, h2 => by
    by_cases hab : a = b
    · subst hab
      by_cases hbc : a = c
      · subst hbc
        simp only [textLt, if_true] at h1 h2 ⊢
        exact textLt_trans h1 h2
      · simpa [textLt, hbc] using h2
    · by_cases hbc : b = c
      · subst hbc; simpa [textLt, hab] using h1
      · simp only [textLt, if_neg hab, if_neg hbc, decide_eq_true_eq] at h1 h2
        have hac : a ≠ c := by rintro rfl; omega
        simp only [textLt, if_neg hac, decide_eq_true_eq]
        omega

/-- Every write of the storage keeps its canonical form. -/
theorem storagePut_wf (path : Text) (content : Option Text) (st : List (Text × Text)) (h : storageWf st = true) :
    storageWf (storagePut path content st) = true :=
  tablePut_wf (lt := textLt) path content (fun a b c h1 h2 => textLt_trans (a := a) (b := b) (c := c) h1 h2)
    (fun a b h1 h2 => textLt_connected (a := a) (b := b) h1 h2) st h

/-- Every write of the pin modes keeps their canonical form. -/
theorem setPinMode_wf (pin mode : Nat) (p : List (Nat × Nat)) (h : pinModesWf p = true) :
    pinModesWf (setPinMode pin mode p) = true := by
  refine tablePut_wf pin (some mode) ?_ ?_ p h
  · intro x y z hx hy
    simp only [decide_eq_true_eq] at hx hy ⊢
    omega
  · intro x y hne hx
    simp only [decide_eq_true_eq, decide_eq_false_iff_not] at hx ⊢
    omega

/-! ## Storage -/

/-- `STORE` writes the storage, records the text handed over and consumes a draw, nothing else (R282). -/
theorem store_eq (path text : Text) (s : State) :
    store path text s =
      ((drawStore s).1,
        { s with
          env := (drawStore s).2.env
          storage := storagePut path (if (drawStore s).1 = true then some text else none) s.storage
          handed := s.handed ++ [{ path := path, text := text }] }) := rfl

/-- `LINES` consumes a draw and writes nothing else (R282). -/
theorem readLines_st (path : Text) (s : State) :
    (readLines path s).2 = { s with env := (drawRead s).2.env } := rfl

/-! ## Interrupt context and capture -/

/-- The callback fills an empty queue, and changes nothing else (R311, R316). -/
theorem isrCallback_cases (b : RawBatch) (rx : RxUnit) :
    (rx.callback = true ∧ rx.queue = .empty ∧ isrCallback b rx = { rx with queue := .full b }) ∨
    ((rx.callback = false ∨ rx.queue ≠ .empty) ∧ isrCallback b rx = rx) := by
  unfold isrCallback
  cases rx.callback
  · simp
  · cases h : rx.queue <;> simp

/-- A capture completes, or nothing happens (R226, R232, R309). -/
theorem rxComplete_cases (b : RawBatch) (s : State) :
    (s.rx.state = .armed ∧ s.fault = false ∧ b.wf = true ∧ rxComplete b s = { s with rx := rxCapture b s.rx }) ∨
    rxComplete b s = s := by
  unfold rxComplete
  split
  · next h => exact .inl ⟨h.1, h.2.1, h.2.2, rfl⟩
  · exact .inr rfl

/-- A waveform completes one capture or does nothing (R221 to R226). -/
theorem rxWave_cases (w : List Interval) (s : State) :
    (∃ c b, s.rx.cfg = some c ∧ captureOf c w = some b ∧ rxWave w s = rxComplete b s) ∨ rxWave w s = s := by
  unfold rxWave
  cases hc : s.rx.cfg with
  | none => exact .inr rfl
  | some c =>
    cases hb : captureOf c w with
    | none => simp [hb]
    | some b => exact .inl ⟨c, b, rfl, hb, by simp [hb]⟩

/-! ## Encoders -/

/-- An encoder writes `SEQ` and succeeds, or fails and writes nothing (R182, R183). -/
theorem writeSeq_cases (r : Except ResultCode TimingSeq) (s : State) :
    (∃ q, r = .ok q ∧ writeSeq r s = done { s with seq := q }) ∨ (∃ c, r = .error c ∧ writeSeq r s = raise c s) := by
  cases r with
  | ok q => exact .inl ⟨q, rfl, rfl⟩
  | error c => exact .inr ⟨c, rfl, rfl⟩

/-- An encoder of two operands: unsupported, malformed, or a frame (R182, R183). -/
theorem encodeWith_cases (p : Params) (name : Text) (addr cmd : Option Nat) (frame : ProtocolSpec → Nat → Nat → TimingSeq) :
    (rowOf p name = none ∧ encodeWith p name addr cmd frame = .error .eNotSupported) ∨
    (∃ row a c, rowOf p name = some row ∧ addr = some a ∧ cmd = some c ∧
      encodeWith p name addr cmd frame = .ok (frame row a c)) ∨
    ((addr = none ∨ cmd = none) ∧ encodeWith p name addr cmd frame = .error .eMalformedHex) := by
  unfold encodeWith
  cases h : rowOf p name with
  | none => exact .inl ⟨rfl, rfl⟩
  | some row => cases addr <;> cases cmd <;> simp

/-! ## Transmit -/

/-- TX.ENSURE's configuration: untouched when equal, else a new configuration and one `Config` event (R200). -/
theorem txConfigure_cases (c : TxConfig) (s : State) :
    (s.tx.cfg = some c ∧ txConfigure c s = s) ∨
    (s.tx.cfg ≠ some c ∧
      txConfigure c s = { s with tx := { s.tx with cfg := some c, trace := s.tx.trace ++ [.config c] } }) := by
  unfold txConfigure
  split
  · next h => exact .inl ⟨h, rfl⟩
  · next h => exact .inr ⟨h, rfl⟩

/-- TX.ENSURE: configured, allocated and configured, or faulted (R200). -/
theorem txEnsure_cases (c : TxConfig) (s : State) :
    (s.tx.alloc = true ∧ txEnsure c s = done (txConfigure c s)) ∨
    (s.tx.alloc = false ∧ (drawAlloc s).1 = true ∧
      txEnsure c s =
        done (txConfigure c { (drawAlloc s).2 with tx := { (drawAlloc s).2.tx with alloc := true } })) ∨
    (s.tx.alloc = false ∧ (drawAlloc s).1 = false ∧ txEnsure c s = enterFault (drawAlloc s).2) := by
  unfold txEnsure
  cases h : s.tx.alloc
  · cases hd : (drawAlloc s).1
    · exact .inr (.inr ⟨rfl, rfl, by simp [hd]⟩)
    · exact .inr (.inl ⟨rfl, rfl, by simp [hd]⟩)
  · exact .inl ⟨rfl, by simp⟩

/-- The engine completes: the frame in the trace, the pin idle, no frame in flight (R204). -/
theorem txComplete_eq (s : State) :
    txComplete s = { s with tx := { s.tx with
      trace := s.tx.trace ++ [.frame (pairsOf s.tx.buf)], level := .idleLevel, busy := false, played := 0 } } := by
  simp only [txComplete, playPairs_eq]

/-- The request and its wait: completion, or a timeout that leaves the frame in flight (R201, R207). -/
theorem txRequest_cases (syms : List Symbol) (s : State) :
    ∃ s1, s1 = { s with tx := { s.tx with buf := syms, busy := true, played := 0 } } ∧
      ((s.maxWait = none ∧ txRequest syms s = done (txComplete s1)) ∨
       (s.maxWait ≠ none ∧ (drawWait s1).1 = false ∧ txRequest syms s = done (txComplete (drawWait s1).2)) ∨
       (s.maxWait ≠ none ∧ (drawWait s1).1 = true ∧ ∃ n : Nat × State, n = drawPlays (drawWait s1).2 ∧
        txRequest syms s =
          raise .eTimeout { n.2 with tx := playPairs n.2.tx ((unplayed n.2.tx).take n.1) })) := by
  refine ⟨_, rfl, ?_⟩
  unfold txRequest
  split
  · next h => exact .inl ⟨h, rfl⟩
  · next m h =>
    by_cases hd : (drawWait { s with tx := { s.tx with buf := syms, busy := true, played := 0 } }).1 = true
    · exact .inr (.inr ⟨by simp [h], hd, _, rfl, if_pos hd⟩)
    · exact .inr (.inl ⟨by simp [h], by simpa using hd, if_neg hd⟩)

/-- The engine's chance: nothing in flight, or a completion, or not yet (R204). -/
theorem txMayComplete_cases (s : State) :
    (s.tx.busy = false ∧ txMayComplete s = s) ∨
    (s.tx.busy = true ∧ (drawEngine s).1 = true ∧ txMayComplete s = txComplete (drawEngine s).2) ∨
    (s.tx.busy = true ∧ (drawEngine s).1 = false ∧ txMayComplete s = (drawEngine s).2) := by
  unfold txMayComplete
  cases h : s.tx.busy
  · exact .inl ⟨rfl, rfl⟩
  · cases hd : (drawEngine s).1
    · exact .inr (.inr ⟨rfl, rfl, by simp [hd]⟩)
    · exact .inr (.inl ⟨rfl, rfl, by simp [hd]⟩)

/-- The end of a command send changes the transmit side and the draws, nothing else (R206). -/
theorem emitterOff_frame (s : State) :
    emitterOff s = { s with tx := (emitterOff s).tx, env := (emitterOff s).env } := by
  unfold emitterOff
  rcases txMayComplete_cases s with ⟨_, h⟩ | ⟨_, _, h⟩ | ⟨_, _, h⟩ <;> rw [h] <;> rfl

/-- TX.SEND changes the transmit side, the draws and the fault flag, nothing else (R77, R201). -/
theorem txConfigure_frame (c : TxConfig) (s : State) : txConfigure c s = { s with tx := (txConfigure c s).tx } := by
  rcases txConfigure_cases c s with ⟨_, h⟩ | ⟨_, h⟩ <;> rw [h]

theorem txDrain_frame (s : State) : txDrain s = { s with tx := (txDrain s).tx } := by
  unfold txDrain
  split <;> rfl

theorem txEnsure_frame (c : TxConfig) (s : State) :
    (txEnsure c s).st =
      { s with tx := (txEnsure c s).st.tx, env := (txEnsure c s).st.env, fault := (txEnsure c s).st.fault } := by
  rcases txEnsure_cases c s with ⟨_, h⟩ | ⟨_, _, h⟩ | ⟨_, _, h⟩
  · rw [h, done_st, txConfigure_frame]
  · rw [h, done_st, txConfigure_frame]
    rfl
  · rw [h]
    rfl

theorem txRequest_frame (syms : List Symbol) (s : State) :
    (txRequest syms s).st = { s with tx := (txRequest syms s).st.tx, env := (txRequest syms s).st.env } := by
  obtain ⟨s1, rfl, ⟨_, h⟩ | ⟨_, _, h⟩ | ⟨_, _, n, rfl, h⟩⟩ := txRequest_cases syms s <;> rw [h] <;> rfl

/-- TX.SEND: refused when empty, else drained, ensured and requested (R201, R207). -/
theorem txSend_cases (q : List Nat) (c : TxConfig) (s : State) :
    (q = [] ∧ txSend q c s = raise .eEmptySeq s) ∨
    (q ≠ [] ∧ (txEnsure c (txDrain s)).faulted = true ∧ txSend q c s = txEnsure c (txDrain s)) ∨
    (q ≠ [] ∧ (txEnsure c (txDrain s)).faulted = false ∧
      txSend q c s = txRequest (pack (expand q)) (txEnsure c (txDrain s)).st) := by
  cases q with
  | nil => exact .inl ⟨rfl, rfl⟩
  | cons d q =>
    cases h : (txEnsure c (txDrain s)).faulted
    · exact .inr (.inr ⟨by simp, rfl, by simp [txSend, h]⟩)
    · exact .inr (.inl ⟨by simp, rfl, by simp [txSend, h]⟩)

/-- TX.SEND changes the transmit side, the draws and the fault flag, nothing else (R77, R201). -/
theorem txSend_frame (q : List Nat) (c : TxConfig) (s : State) :
    (txSend q c s).st =
      { s with tx := (txSend q c s).st.tx, env := (txSend q c s).st.env, fault := (txSend q c s).st.fault } := by
  rcases txSend_cases q c s with ⟨_, h⟩ | ⟨_, _, h⟩ | ⟨_, _, h⟩
  · rw [h]
    rfl
  · rw [h, txEnsure_frame, txDrain_frame]
  · rw [h, txRequest_frame, txEnsure_frame, txDrain_frame]

/-- The repeat loop changes the transmit side, the draws and the fault flag, nothing else (R205). -/
theorem sendLoop_frame (q : List Nat) (c : TxConfig) :
    ∀ (n : Nat) (first : Option ResultCode) (s : State),
      (sendLoop q c n first s).st =
        { s with
          tx := (sendLoop q c n first s).st.tx
          env := (sendLoop q c n first s).st.env
          fault := (sendLoop q c n first s).st.fault }
  | 0, none, s => by
    rw [sendLoop, done_st, emitterOff_frame]
  | 0, some _, s => by
    rw [sendLoop, raise_st, emitterOff_frame]
  | n + 1, first, s => by
    unfold sendLoop
    dsimp only
    split
    · exact txSend_frame q c s
    · rw [sendLoop_frame q c n _ (txSend q c s).st, txSend_frame q c s]

/-- TX.SENDCMD changes `SEQ`, the transmit side, the draws and the fault flag, nothing else (R205). -/
theorem txSendcmd_frame (s : State) :
    (txSendcmd s).st =
      { s with
        seq := (txSendcmd s).st.seq
        tx := (txSendcmd s).st.tx
        env := (txSendcmd s).st.env
        fault := (txSendcmd s).st.fault } := by
  unfold txSendcmd
  cases encAuto s.params s.cmd with
  | error e =>
    simp only [raise_st]
    rw [emitterOff_frame]
  | ok q =>
    simp only
    rw [sendLoop_frame]

/-! ## Receive -/

/-- RX.INIT: a no-op, a fresh channel, or a fault (R220). -/
theorem rxInit_cases (c : RxConfig) (s : State) :
    (s.rx.state ≠ .uninit ∧ rxInit c s = done s) ∨
    (s.rx.state = .uninit ∧ (drawAlloc s).1 = true ∧
      rxInit c s = done { (drawAlloc s).2 with
        rx := { s.rx with state := .armed, cfg := some c, queue := .empty, callback := true } }) ∨
    (s.rx.state = .uninit ∧ (drawAlloc s).1 = false ∧ rxInit c s = enterFault (drawAlloc s).2) := by
  unfold rxInit
  by_cases h : s.rx.state = .uninit
  · cases hd : (drawAlloc s).1
    · exact .inr (.inr ⟨h, rfl, by simp [h, hd]⟩)
    · exact .inr (.inl ⟨h, rfl, by simp [h, hd]⟩)
  · exact .inl ⟨h, by simp [h]⟩

/-- RX.POLL: not initialized, a batch taken, or none (R227). -/
theorem rxPoll_cases (s : State) :
    (s.rx.state = .uninit ∧ rxPoll s = raise .eNotInit s) ∨
    (s.rx.state ≠ .uninit ∧ ∃ b, s.rx.queue = .full b ∧
      rxPoll s = { code := .ok, st := { s with rx := { s.rx with queue := .empty } }, value := .batch b }) ∨
    (s.rx.state ≠ .uninit ∧ (∀ b, s.rx.queue ≠ .full b) ∧ rxPoll s = done s) := by
  unfold rxPoll
  by_cases h : s.rx.state = .uninit
  · simp [h]
  · cases hq : s.rx.queue <;> simp [h]

/-- RX.REARM: refused and nothing changes, or armed (R228). -/
theorem rxRearm_cases (s : State) :
    (∃ c, c ≠ .ok ∧ rxRearm s = raise c s ∧ (s.rx.state = .uninit ∨ qFull s.rx = true ∨ s.rx.state = .armed)) ∨
    (s.rx.state ≠ .uninit ∧ qFull s.rx = false ∧ s.rx.state ≠ .armed ∧
      rxRearm s = done { s with rx := { s.rx with state := .armed } }) := by
  unfold rxRearm
  by_cases h1 : s.rx.state = .uninit
  · exact .inl ⟨.eNotInit, by simp [h1]⟩
  · by_cases h2 : qFull s.rx = true
    · exact .inl ⟨.eBackpressure, by simp [h1, h2]⟩
    · by_cases h3 : s.rx.state = .armed
      · exact .inl ⟨.eBadState, by simp [h2, h3]⟩
      · exact .inr ⟨h1, by simpa using h2, h3, by simp [h1, h2, h3]⟩

/-- RX.DEINIT: a no-op, or everything freed (R231). -/
theorem rxDeinit_cases (s : State) :
    (s.rx.state = .uninit ∧ rxDeinit s = done s) ∨
    (s.rx.state ≠ .uninit ∧
      rxDeinit s = done { s with rx := { s.rx with state := .uninit, cfg := none, queue := .absent, callback := false } }) := by
  unfold rxDeinit
  by_cases h : s.rx.state = .uninit <;> simp [h]

/-- The session's rearm changes the receive state, nothing else. -/
theorem sesRearm_frame (s : State) : sesRearm s = { s with rx := { s.rx with state := (sesRearm s).rx.state } } := by
  unfold sesRearm
  rcases rxRearm_cases s with ⟨c, _, h, _⟩ | ⟨_, _, _, h⟩ <;> rw [h] <;> rfl

/-! ## Recent buffer and replay -/

/-- REC.INSERT: unchanged when the path is there, else in front and cut to 16 (R280). -/
theorem recInsert_cases (c : Command) (r : List Command) :
    ((∃ e ∈ r, e.path = c.path) ∧ recInsert c r = r) ∨
    ((∀ e ∈ r, e.path ≠ c.path) ∧ recInsert c r = (c :: r).take Config.recentCap) := by
  unfold recInsert
  by_cases h : ∃ e ∈ r, e.path = c.path
  · refine .inl ⟨h, ?_⟩
    rw [if_pos]
    simpa using h
  · refine .inr ⟨fun e he hp => h ⟨e, he, hp⟩, ?_⟩
    rw [if_neg]
    simpa using h

/-- A boundary that ends changes the flags and clears `PAUSED`, nothing else (R279). -/
theorem boundary_frame : ∀ (samples : List InputFlags) (s t : State),
    (boundary samples s = .go t ∨ boundary samples s = .cancelled t) →
      t = { s with flags := t.flags, paused := false }
  | [], s, t, h => by
    unfold boundary at h
    dsimp only at h
    split at h
    · rcases h with h | h
      · cases h
      · cases h
        rfl
    · split at h
      · rcases h with h | h <;> cases h
      · rcases h with h | h
        · cases h
          rfl
        · cases h
  | f :: rest, s, t, h => by
    unfold boundary at h
    dsimp only at h
    split at h
    · rcases h with h | h
      · cases h
      · cases h
        rfl
    · split at h
      · split at h
        · rcases h with h | h <;> cases h
        · next g more =>
          rw [boundary_frame (g :: more) _ t h]
      · rcases h with h | h
        · cases h
          rfl
        · cases h

/-- The record loop changes the operand registers, `SEQ`, the transmit side, `rec_idx`, `PAUSED`, the flags, the draws
and the fault flag, nothing else (R278). -/
theorem spamLoop_frame : ∀ (recs : List Command) (s : State) (e : Ended), spamLoop recs s = some e →
    e.st = { s with
      cmd := e.st.cmd
      seq := e.st.seq
      recIdx := e.st.recIdx
      tx := e.st.tx
      paused := e.st.paused
      flags := e.st.flags
      env := e.st.env
      fault := e.st.fault }
  | [], s, e, h => by
    simp only [spamLoop, Option.some.injEq] at h
    subst h
    rfl
  | c :: rest, s, e, h => by
    unfold spamLoop at h
    dsimp only at h
    split at h
    · cases h
    · next s1 hb =>
      have hf := boundary_frame _ _ _ (.inr hb)
      simp only [Option.some.injEq] at h
      subst h
      rw [raise_st, hf]
      rfl
    · next s1 hb =>
      have hf := boundary_frame _ _ _ (.inl hb)
      split at h
      · simp only [Option.some.injEq] at h
        subst h
        rw [txSendcmd_frame, hf]
        rfl
      · rw [spamLoop_frame rest _ e h, txSendcmd_frame, hf]
        rfl

end Sys2Proof.Machine
end

