-- ==== Sys2Proof/Laws/PerInstr.lean ====
section
/-! SUPPORT. One law for every operation, as syntax: its word is one byte, the decoder reads it back from a table word
and refuses nothing of it, whatever stands after it (30_encoding.md R99, R100). -/

namespace Sys2Proof.Laws

/-- The operation word of an operation is one byte, it is not reserved, and a table word whose low byte it is decodes
to the operation. -/
def SelectorLaw.Statement (i : Instr) : Prop :=
  encode i = [selector i] ∧ decodeSelector (selector i) = some i ∧ decodeTableWord 8 (selector i).toNat = some i

theorem SelectorLaw.primAppendrun : SelectorLaw.Statement .primAppendrun := ⟨rfl, rfl, rfl⟩

theorem SelectorLaw.primCoalesce : SelectorLaw.Statement .primCoalesce := ⟨rfl, rfl, rfl⟩

theorem SelectorLaw.famPd : SelectorLaw.Statement .famPd := ⟨rfl, rfl, rfl⟩

theorem SelectorLaw.famPw : SelectorLaw.Statement .famPw := ⟨rfl, rfl, rfl⟩

theorem SelectorLaw.famBiphase : SelectorLaw.Statement .famBiphase := ⟨rfl, rfl, rfl⟩

theorem SelectorLaw.encNec : SelectorLaw.Statement .encNec := ⟨rfl, rfl, rfl⟩

theorem SelectorLaw.encNecext : SelectorLaw.Statement .encNecext := ⟨rfl, rfl, rfl⟩

theorem SelectorLaw.encRc5 : SelectorLaw.Statement .encRc5 := ⟨rfl, rfl, rfl⟩

theorem SelectorLaw.encRc6 : SelectorLaw.Statement .encRc6 := ⟨rfl, rfl, rfl⟩

theorem SelectorLaw.encSamsung32 : SelectorLaw.Statement .encSamsung32 := ⟨rfl, rfl, rfl⟩

theorem SelectorLaw.encSirc : SelectorLaw.Statement .encSirc := ⟨rfl, rfl, rfl⟩

theorem SelectorLaw.encSirc15 : SelectorLaw.Statement .encSirc15 := ⟨rfl, rfl, rfl⟩

theorem SelectorLaw.encSirc20 : SelectorLaw.Statement .encSirc20 := ⟨rfl, rfl, rfl⟩

theorem SelectorLaw.encKaseikyo : SelectorLaw.Statement .encKaseikyo := ⟨rfl, rfl, rfl⟩

theorem SelectorLaw.encRaw : SelectorLaw.Statement .encRaw := ⟨rfl, rfl, rfl⟩

theorem SelectorLaw.encAuto : SelectorLaw.Statement .encAuto := ⟨rfl, rfl, rfl⟩

theorem SelectorLaw.txEnsure : SelectorLaw.Statement .txEnsure := ⟨rfl, rfl, rfl⟩

theorem SelectorLaw.txSend : SelectorLaw.Statement .txSend := ⟨rfl, rfl, rfl⟩

theorem SelectorLaw.txSendcmd : SelectorLaw.Statement .txSendcmd := ⟨rfl, rfl, rfl⟩

theorem SelectorLaw.rxInit : SelectorLaw.Statement .rxInit := ⟨rfl, rfl, rfl⟩

theorem SelectorLaw.rxPoll : SelectorLaw.Statement .rxPoll := ⟨rfl, rfl, rfl⟩

theorem SelectorLaw.rxRearm : SelectorLaw.Statement .rxRearm := ⟨rfl, rfl, rfl⟩

theorem SelectorLaw.rxDrain : SelectorLaw.Statement .rxDrain := ⟨rfl, rfl, rfl⟩

theorem SelectorLaw.rxRestart : SelectorLaw.Statement .rxRestart := ⟨rfl, rfl, rfl⟩

theorem SelectorLaw.rxDeinit : SelectorLaw.Statement .rxDeinit := ⟨rfl, rfl, rfl⟩

theorem SelectorLaw.norm : SelectorLaw.Statement .norm := ⟨rfl, rfl, rfl⟩

theorem SelectorLaw.seqTotext : SelectorLaw.Statement .seqTotext := ⟨rfl, rfl, rfl⟩

theorem SelectorLaw.seqFromtext : SelectorLaw.Statement .seqFromtext := ⟨rfl, rfl, rfl⟩

theorem SelectorLaw.decMatch : SelectorLaw.Statement .decMatch := ⟨rfl, rfl, rfl⟩

theorem SelectorLaw.sesEnter : SelectorLaw.Statement .sesEnter := ⟨rfl, rfl, rfl⟩

theorem SelectorLaw.sesCapture : SelectorLaw.Statement .sesCapture := ⟨rfl, rfl, rfl⟩

theorem SelectorLaw.sesCommit : SelectorLaw.Statement .sesCommit := ⟨rfl, rfl, rfl⟩

theorem SelectorLaw.sesDiscard : SelectorLaw.Statement .sesDiscard := ⟨rfl, rfl, rfl⟩

theorem SelectorLaw.sesFlush : SelectorLaw.Statement .sesFlush := ⟨rfl, rfl, rfl⟩

theorem SelectorLaw.sesExit : SelectorLaw.Statement .sesExit := ⟨rfl, rfl, rfl⟩

theorem SelectorLaw.rplLoad : SelectorLaw.Statement .rplLoad := ⟨rfl, rfl, rfl⟩

theorem SelectorLaw.rplSelect : SelectorLaw.Statement .rplSelect := ⟨rfl, rfl, rfl⟩

theorem SelectorLaw.rplSpamall : SelectorLaw.Statement .rplSpamall := ⟨rfl, rfl, rfl⟩

theorem SelectorLaw.recInsert : SelectorLaw.Statement .recInsert := ⟨rfl, rfl, rfl⟩

end Sys2Proof.Laws
end

