-- ==== Sys2Proof/Laws/Sequences.lean ====
section
/-! SUPPORT. The primitives, operand texts, bit permutations and recorded runs in the terms the statements use. -/

namespace Sys2Proof.Machine

/-! ## Run lists -/

/-- One APPENDRUN after another appends the chunks of each call (R130). -/
theorem foldl_appendRun (calls : List (Polarity × Nat)) (r : List Run) :
    calls.foldl (fun r c => appendRun r c.1 c.2) r = r ++ calls.flatMap (fun c => chunks c.1 c.2) := by
  induction calls generalizing r with
  | nil => simp
  | cons c cs ih => rw [List.foldl_cons, ih, List.flatMap_cons, appendRun, List.append_assoc]

/-- APPENDRUN calls on the empty run list give the chunks of each call in order (R130). -/
theorem appendAll_eq (calls : List (Polarity × Nat)) : appendAll calls = calls.flatMap (fun c => chunks c.1 c.2) := by
  simp only [appendAll, foldl_appendRun, List.nil_append]

/-- The header calls give the header runs (R151). -/
theorem headerCalls_chunks (p : ProtocolSpec) : (headerCalls p).flatMap (fun c => chunks c.1 c.2) = headerRuns p := by
  unfold headerCalls headerRuns; by_cases h : p.headerMark = 0 <;> simp [h]

/-- The trailer calls give the trailer runs (R151). -/
theorem trailerCalls_chunks (p : ProtocolSpec) :
    (trailerCalls p).flatMap (fun c => chunks c.1 c.2) = trailerRuns p := by
  unfold trailerCalls trailerRuns; by_cases h : p.trailerMark = 0 <;> by_cases h2 : p.trailerSpace = 0 <;> simp [h, h2]

/-- The two ways of writing the bit sent at a position (R150). -/
theorem bitSent_eq_sentBit (p : ProtocolSpec) (d n i) : bitSent p d n i = sentBit p.bitOrder d n i := by
  unfold bitSent sentBit bitPlace; cases p.bitOrder <;> simp

/-- The runs of a list by position are the chunks of its APPENDRUN calls (R201, R252). -/
theorem positionRuns_eq_chunks : ∀ (q : List Nat) (k : Nat), positionRuns (parity k) q =
    ((q.zipIdx k).map (fun e => (parity e.2, e.1))).flatMap (fun c => chunks c.1 c.2)
  | [], k => by simp [positionRuns]
  | d :: q, k => by
    have := positionRuns_eq_chunks q (k+1)
    rw [positionRuns, List.zipIdx_cons, List.map_cons, List.flatMap_cons, ← this]
    congr 2
    unfold parity
    rcases Nat.mod_two_eq_zero_or_one k with h | h
    · have : (k+1) % 2 = 1 := by omega
      simp [h, this, opposite]
    · have : (k+1) % 2 = 0 := by omega
      simp [h, this, opposite]

/-! ## Operand texts -/

/-- A hexadecimal digit is below 16 (R102). -/
theorem hexDigit_lt {c d} (h : hexDigit c = some d) : d < 16 := by
  unfold hexDigit at h
  split at h
  · next h1 =>
    have a1 : c.toNat ≤ 57 := h1.2
    simp at h; omega
  · split at h
    · next h1 =>
      have a1 : c.toNat ≤ 102 := h1.2
      simp at h; omega
    · split at h
      · next h1 =>
        have a1 : c.toNat ≤ 70 := h1.2
        simp at h; omega
      · cases h

/-- A read text has one digit for each character (R102). -/
theorem hexDigits_spec : ∀ {t : Text} {ds}, hexDigits t = some ds → ds.length = t.length ∧ ∀ d ∈ ds, d < 16
  | [], ds, h => by simp [hexDigits] at h; subst h; simp
  | c :: t, ds, h => by
    simp only [hexDigits] at h
    split at h
    · next d ds' h1 h2 =>
      simp at h; subst h
      have := hexDigits_spec h2
      refine ⟨by simp [this.1], ?_⟩
      intro x hx; simp at hx; rcases hx with rfl | hx
      · exact hexDigit_lt h1
      · exact this.2 x hx
    · cases h

/-- A numeral is bounded by its number of digits. -/
theorem foldl_numeral_lt : ∀ (ds : List Nat) (acc : Nat), (∀ d ∈ ds, d < 16) →
   ds.foldl (fun acc d => 16 * acc + d) acc < (acc+1) * 16 ^ ds.length
  | [], acc, _ => by simp
  | d :: ds, acc, h => by
    have := foldl_numeral_lt ds (16*acc+d) (fun x hx => h x (by simp [hx]))
    have hd := h d (by simp)
    simp only [List.foldl_cons, List.length_cons, pow_succ]
    calc _ < _ := this
      _ ≤ (16 * (acc+1)) * 16 ^ ds.length := Nat.mul_le_mul_right _ (by omega)
      _ = _ := by ring

/-- A read field has `ndigits` digits (R102). -/
theorem hexField_spec {t ds} (h : hexField t = some ds) : ds.length = ndigits t ∧ ∀ d ∈ ds, d < 16 := by
  unfold hexField at h
  split at h
  · cases h
  · next c cs hc =>
    have := hexDigits_spec h
    unfold ndigits; rw [hc]; exact this

/-- A field of `n` digits is below `16^n` (R102). -/
theorem hexval_lt {t v} (h : hexval t = some v) : v < 16 ^ ndigits t := by
  unfold hexval at h
  simp at h
  obtain ⟨ds, h1, rfl⟩ := h
  have := hexField_spec h1
  have := foldl_numeral_lt ds 0 this.2
  simp at this
  rw [← (hexField_spec h1).1]; exact this

/-- `first_byte` is below 256 (R103). -/
theorem firstByte_lt {t v} (h : firstByte t = some v) : v < 256 := by
  unfold firstByte at h
  simp at h
  obtain ⟨ds, h1, rfl⟩ := h
  have := (hexField_spec h1).2
  have := foldl_numeral_lt (ds.take 2) 0 (fun d hd => this d (List.mem_of_mem_take hd))
  simp only [zero_add, one_mul] at this
  refine lt_of_lt_of_le this ?_
  calc 16 ^ (ds.take 2).length ≤ 16 ^ 2 := Nat.pow_le_pow_right (by omega) (by simp)
    _ = 256 := by norm_num

/-! ## Bits -/

/-- Fields that do not overlap are added. -/
theorem or_shiftLeft_eq_add (a b n : Nat) (h : a < 2^n) : a ||| (b <<< n) = a + 2^n * b := by
  rw [Nat.shiftLeft_eq, Nat.mul_comm b, Nat.or_comm, ← Nat.two_pow_add_eq_or_of_lt h]; omega

/-- `bitrev_N` stays below `2^N` (R105). -/
theorem bitrev_lt : ∀ n v, bitrev n v < 2^n
  | 0, v => by simp [bitrev]
  | n+1, v => by
    unfold bitrev
    have := bitrev_lt n (v/2)
    rw [Nat.or_comm, or_shiftLeft_eq_add _ _ n this]
    have : v % 2 < 2 := Nat.mod_lt _ (by decide)
    have h2 : 2^n * (v%2) ≤ 2^n * 1 := Nat.mul_le_mul_left _ (by omega)
    rw [pow_succ]; omega

/-! ## The reference capture -/

/-- Two pairs a record, an odd last one filled (R222). -/
theorem symbolsOf_length : ∀ l : List (Bool × Nat), (symbolsOf l).length = (l.length+1)/2
  | [] => rfl
  | [_] => by simp [symbolsOf]
  | a :: b :: r => by simp [symbolsOf, symbolsOf_length r]; omega

/-- The recorded pairs fit the room, fill it when truncated, and are not none (R224, R225). -/
theorem recordRuns_length (c : RxConfig) : ∀ room l, (recordRuns c room l).1.length ≤ room ∧
    ((recordRuns c room l).2 = true → (recordRuns c room l).1.length = room) ∧
    (room ≠ 0 → (recordRuns c room l).1.length ≠ 0)
  | 0, l => by simp [recordRuns]
  | n+1, [] => by simp [recordRuns]
  | n+1, (a,b) :: r => by
    unfold recordRuns
    split
    · simp
    · have := recordRuns_length c n r
      simp only [List.length_cons]
      exact ⟨by omega, by intro h; rw [this.2.1 h], by omega⟩

end Sys2Proof.Machine
end

