-- ==== Sys2Proof/Tests/Slice0.lean ====
section
/-! SUPPORT. Tests: well-formedness refuses, every operation word decodes, one or two small runs per operation with
results taken from 95_test_vectors.md or from the example of the operation's rule, and for each statement of the
obligations a state that meets its hypotheses, clause by clause. -/

namespace Sys2Proof.Tests

set_option Elab.async false

open Sys2Proof Sys2Proof.Machine

/-! ## Helpers -/

/-- The next state of an operation, if it answers one. -/
def after (i : Instr) (s : State) : Option State :=
  match exec i s with
  | .next t => some t
  | .fault _ => none
  | .refused _ => none

/-- The reset state with every allocation granted, for a while. -/
def granted : State := { State.reset with env := { freeEnv with allocs := [true, true, true] } }

/-- A parsed command. -/
def parsedCmd (protocol address command : String) : Command :=
  { blankCommand [] with
    type := "parsed".toList, protocol := protocol.toList, address := address.toList, command := command.toList }

/-- The granted state with a parsed command in the operand registers. -/
def withCmd (protocol address command : String) : State := { granted with cmd := parsedCmd protocol address command }

/-- The granted state with a raw command. -/
def withRaw (data : String) : State :=
  { granted with cmd := { blankCommand [] with type := "raw".toList, data := data.toList } }

def mk (d : Nat) : Run := { pol := .mark, dur := d }
def sp (d : Nat) : Run := { pol := .space, dur := d }

/-- The receive configuration of the worked example of 44_receive.md R226. -/
def rxExample : RxConfig :=
  { pin := 7, idleThresholdNs := 10000000, minPulseNs := 1000, maxPulseNs := 20000000, activeLow := true }

/-- The waveform of the worked example of R226. -/
def waveExample : List Interval :=
  [⟨true, 5000000⟩, ⟨false, 9000400⟩, ⟨true, 4500900⟩, ⟨false, 560000⟩, ⟨true, 300⟩, ⟨false, 200⟩, ⟨true, 40000000⟩]

/-- The batch of the worked example of R226. -/
def batchExample : RawBatch := { symbols := [⟨9000, true, 4500, false⟩, ⟨560, true, 0, false⟩], truncated := false }

/-- A batch with no mark. -/
def idleBatch : RawBatch := { symbols := [⟨300, false, 0, false⟩], truncated := false }

/-- An armed receiver. -/
def armed : State :=
  { granted with rx := { state := .armed, cfg := some rxExample, buf := [], queue := .empty, callback := true } }

/-- A receiver with a batch pending. -/
def pendingRx (b : RawBatch) : State :=
  { granted with rx := { state := .idle, cfg := some rxExample, buf := [], queue := .full b, callback := true } }

/-- An idle receiver with an empty queue. -/
def idleRx : State :=
  { granted with rx := { state := .idle, cfg := some rxExample, buf := [], queue := .empty, callback := true } }

/-- The session held on the capture of R226. -/
def held : State :=
  { idleRx with
    ses := { state := .held, count := 0, last := "9000 4500 560 1".toList, pending := [] }
    cmd := { blankCommand [] with name := "power".toList } }

/-- An idle session with one committed signal, storage answering true and then a file that opens. -/
def committed : State :=
  { armed with
    ses := { state := .idle, count := 1, last := "9000 4500 560 1".toList,
             pending := signalText 38000 "power".toList "9000 4500 560 1".toList }
    args := { blankArgs with path := "/tv.ir".toList, devname := "tv".toList }
    env := { freeEnv with stores := [true], reads := [some []] } }

/-- An allocated transmit channel. -/
def sending : State := { granted with tx := { State.reset.tx with alloc := true } }

/-- A file of two records, the second not supported; the operator's samples are given. -/
def replaying (boundaries : List (List InputFlags)) : State :=
  { sending with
    storage := [("/f".toList, "#\nname: a\ntype: raw\ndata: 9000 4500\n#\nname: b\ntype: x\n#\n".toList)]
    args := { blankArgs with path := "/f".toList }
    env := { freeEnv with reads := [some []], boundaries := boundaries } }

/-- The records of that file. -/
def replayed : List Command :=
  [{ blankCommand "/f".toList with name := "a".toList, type := "raw".toList, data := "9000 4500".toList },
   { blankCommand "/f".toList with name := "b".toList, type := "x".toList }]

/-! ## Well-formedness refuses an ill-formed term for each check -/

theorem test_wf_run_zero : (mk 0).wf = false := by decide
theorem test_wf_run_long : (mk 65536).wf = false := by decide
theorem test_wf_seq_odd : TimingSeq.wf [1, 2, 3] = false := by decide
theorem test_wf_seq_zero_element : TimingSeq.wf [1, 0] = false := by decide
theorem test_wf_seq_long_element : TimingSeq.wf [65536, 1] = false := by decide
theorem test_wf_batch_empty : RawBatch.wf { symbols := [], truncated := false } = false := by decide
theorem test_wf_batch_truncated_short : RawBatch.wf { batchExample with truncated := true } = false := by decide
theorem test_wf_batch_too_long :
    RawBatch.wf { symbols := List.replicate 257 ⟨1, true, 1, false⟩, truncated := false } = false := by decide +kernel
theorem test_wf_duty : Duty.wf (mkRat 3 2) = false := by decide +kernel
theorem test_wf_spec_duty : ProtocolSpec.wf { necSpec with duty := mkRat (-1) 2 } = false := by decide +kernel
theorem test_wf_spec_double_idx : ProtocolSpec.wf { rc6Spec with doubleIdx := some 20 } = false := by decide +kernel
theorem test_wf_spec_double_family : ProtocolSpec.wf { necSpec with doubleIdx := some 3 } = false := by decide +kernel
theorem test_wf_params_twice :
    Params.wf { defaultParams with table := [(necName, necSpec), (necName, necSpec)] } = false := by decide +kernel
theorem test_wf_params_duty : Params.wf { defaultParams with defaultDuty := 2 } = false := by decide +kernel
theorem test_wf_params_default : Params.wf defaultParams = true := by decide +kernel
theorem test_wf_wave_zero : waveWf [⟨true, 0⟩] = false := by decide
theorem test_wf_wave_same_level : waveWf [⟨true, 1⟩, ⟨true, 1⟩] = false := by decide
theorem test_wf_args_family : Args.wfFor { blankArgs with spec := necSpec } .famPw = false := by decide +kernel
theorem test_wf_args_duty : Args.wfFor { blankArgs with duty := 2 } .txSend = false := by decide +kernel
theorem test_wf_args_batch : Args.wfFor blankArgs .norm = false := by decide

/-! ## Every operation word of 30_encoding.md R100, bits 7 to 0 written out -/

theorem test_decode_primAppendrun : decode [0b00000001#8] = .ok (.primAppendrun, []) := rfl
theorem test_decode_primCoalesce : decode [0b00000010#8] = .ok (.primCoalesce, []) := rfl
theorem test_decode_famPd : decode [0b00000100#8] = .ok (.famPd, []) := rfl
theorem test_decode_famPw : decode [0b00000101#8] = .ok (.famPw, []) := rfl
theorem test_decode_famBiphase : decode [0b00000110#8] = .ok (.famBiphase, []) := rfl
theorem test_decode_encNec : decode [0b00010000#8] = .ok (.encNec, []) := rfl
theorem test_decode_encNecext : decode [0b00010001#8] = .ok (.encNecext, []) := rfl
theorem test_decode_encRc5 : decode [0b00010010#8] = .ok (.encRc5, []) := rfl
theorem test_decode_encRc6 : decode [0b00010011#8] = .ok (.encRc6, []) := rfl
theorem test_decode_encSamsung32 : decode [0b00010100#8] = .ok (.encSamsung32, []) := rfl
theorem test_decode_encSirc : decode [0b00010101#8] = .ok (.encSirc, []) := rfl
theorem test_decode_encSirc15 : decode [0b00010110#8] = .ok (.encSirc15, []) := rfl
theorem test_decode_encSirc20 : decode [0b00010111#8] = .ok (.encSirc20, []) := rfl
theorem test_decode_encKaseikyo : decode [0b00011000#8] = .ok (.encKaseikyo, []) := rfl
theorem test_decode_encRaw : decode [0b00011001#8] = .ok (.encRaw, []) := rfl
theorem test_decode_encAuto : decode [0b00011111#8] = .ok (.encAuto, []) := rfl
theorem test_decode_txEnsure : decode [0b00100000#8] = .ok (.txEnsure, []) := rfl
theorem test_decode_txSend : decode [0b00100001#8] = .ok (.txSend, []) := rfl
theorem test_decode_txSendcmd : decode [0b00100010#8] = .ok (.txSendcmd, []) := rfl
theorem test_decode_rxInit : decode [0b00110000#8] = .ok (.rxInit, []) := rfl
theorem test_decode_rxPoll : decode [0b00110001#8] = .ok (.rxPoll, []) := rfl
theorem test_decode_rxRearm : decode [0b00110010#8] = .ok (.rxRearm, []) := rfl
theorem test_decode_rxDrain : decode [0b00110011#8] = .ok (.rxDrain, []) := rfl
theorem test_decode_rxRestart : decode [0b00110100#8] = .ok (.rxRestart, []) := rfl
theorem test_decode_rxDeinit : decode [0b00110101#8] = .ok (.rxDeinit, []) := rfl
theorem test_decode_norm : decode [0b01000000#8] = .ok (.norm, []) := rfl
theorem test_decode_seqTotext : decode [0b01000001#8] = .ok (.seqTotext, []) := rfl
theorem test_decode_seqFromtext : decode [0b01000010#8] = .ok (.seqFromtext, []) := rfl
theorem test_decode_decMatch : decode [0b01000011#8] = .ok (.decMatch, []) := rfl
theorem test_decode_sesEnter : decode [0b01010000#8] = .ok (.sesEnter, []) := rfl
theorem test_decode_sesCapture : decode [0b01010001#8] = .ok (.sesCapture, []) := rfl
theorem test_decode_sesCommit : decode [0b01010010#8] = .ok (.sesCommit, []) := rfl
theorem test_decode_sesDiscard : decode [0b01010011#8] = .ok (.sesDiscard, []) := rfl
theorem test_decode_sesFlush : decode [0b01010100#8] = .ok (.sesFlush, []) := rfl
theorem test_decode_sesExit : decode [0b01010101#8] = .ok (.sesExit, []) := rfl
theorem test_decode_rplLoad : decode [0b01100000#8] = .ok (.rplLoad, []) := rfl
theorem test_decode_rplSelect : decode [0b01100001#8] = .ok (.rplSelect, []) := rfl
theorem test_decode_rplSpamall : decode [0b01100010#8] = .ok (.rplSpamall, []) := rfl
theorem test_decode_recInsert : decode [0b01100011#8] = .ok (.recInsert, []) := rfl
theorem test_decode_reserved : decode [0b00000011#8] = .error (.reservedSelector 0b00000011#8) := rfl
theorem test_decode_nothing : decode [] = .error .noWord := rfl

/-! ## One step of each operation -/

/-- 95_test_vectors.md 2.1: 200000 splits into three full chunks and 3395. -/
theorem test_appendrun :
    (after .primAppendrun { granted with args := { blankArgs with dur := 200000 } }).map (·.value) =
      some (.runs [mk 65535, mk 65535, mk 65535, mk 3395]) := by decide +kernel
/-- R130: a zero duration appends nothing. -/
theorem test_appendrun_zero :
    (after .primAppendrun { granted with args := { blankArgs with runs := [sp 5] } }).map (·.value) =
      some (.runs [sp 5]) := by decide +kernel
/-- R131's example. -/
theorem test_coalesce :
    (after .primCoalesce { granted with args := { blankArgs with runs := [sp 500, sp 7, mk 100, mk 50, sp 30] } }).map
      (·.seq) = some [150, 30] := by decide +kernel
/-- R131: a capped merge loses time. -/
theorem test_coalesce_cap :
    (after .primCoalesce { granted with args := { blankArgs with runs := [mk 40000, mk 30000] } }).map (·.seq) =
      some [65535, 1] := by decide +kernel
/-- R151's example. -/
theorem test_famPd :
    (after .famPd { granted with args := { blankArgs with spec := necSpec, word := 0b01, nbits := 2 } }).map (·.seq) =
      some [9000, 4500, 560, 1690, 560, 560, 560, 1] := by decide +kernel
/-- R152's example. -/
theorem test_famPw :
    (after .famPw { granted with args := { blankArgs with spec := sircSpec 12, word := 0b10, nbits := 2 } }).map
      (·.seq) = some [2400, 600, 1200, 600, 600, 600] := by decide +kernel
/-- R153's example. -/
theorem test_famBiphase :
    (after .famBiphase { granted with args := { blankArgs with spec := rc5Spec .listed15, word := 0b10, nbits := 2 } }).map
      (·.seq) = some [889, 1778, 889, 1] := by decide +kernel
/-- R153: a first half-period that is a space is lost. -/
theorem test_famBiphase_lost_half :
    (after .famBiphase { granted with args := { blankArgs with spec := rc5Spec .listed15, word := 0b01, nbits := 2 } }).map
      (·.seq) = some [1778, 889] := by decide +kernel
/-- R171 and R360: length, start and air time of the frame of 00 and FF. -/
theorem test_encNec :
    (after .encNec (withCmd "NEC" "00" "FF")).map (fun t => (t.seq.length, t.seq.take 4, airTime t.seq)) =
      some (68, [9000, 4500, 560, 560], 67981) := by decide +kernel
/-- R183: an empty field. -/
theorem test_encNec_malformed :
    (after .encNec (withCmd "NEC" "" "FF")).map (fun t => (t.result, t.seq)) = some (.eMalformedHex, []) := by
  decide +kernel
/-- R172: the word of the worked example. -/
theorem test_encNecext :
    (after .encNecext (withCmd "NECext" "04 E0 00 00" "14 EB 00 00")).map (·.seq) =
      some (famPd necextSpec 0x28D72007 32) := by decide +kernel
/-- R173: the frame of 00 and 0C, 26 elements. -/
theorem test_encRc5 :
    (after .encRc5 (withCmd "RC5" "00" "0C")).map (·.seq) =
      some [889, 889, 889, 1778, 1778, 1778, 889, 889, 889, 889, 889, 889, 889, 889, 889, 889, 889, 889, 1778, 889, 889,
        1778, 889, 889, 889, 1] := by decide +kernel
/-- R174: length and start of the frame of 00 and 0C. -/
theorem test_encRc6 :
    (after .encRc6 (withCmd "RC6" "00" "0C")).map (fun t => (t.seq.length, t.seq.take 10)) =
      some (40, [2666, 1333, 444, 444, 444, 444, 444, 888, 888, 444]) := by decide +kernel
/-- R175: the word of 07 and 02. -/
theorem test_encSamsung32 :
    (after .encSamsung32 (withCmd "Samsung32" "07" "02")).map (·.seq) = some (famPd samsung32Spec 0x02020707 32) := by
  decide +kernel
/-- R175: more than four digits are refused. -/
theorem test_encSamsung32_long :
    (after .encSamsung32 (withCmd "Samsung32" "12345" "02")).map (·.result) = some .eMalformedHex := by decide +kernel
/-- R177's example: the whole frame. -/
theorem test_encSirc :
    (after .encSirc (withCmd "SIRC" "01 00 00 00" "15 00 00 00")).map (·.seq) =
      some [2400, 600, 1200, 600, 600, 600, 1200, 600, 600, 600, 1200, 600, 600, 600, 600, 600, 1200, 600, 600, 600, 600,
        600, 600, 600, 600, 600] := by decide +kernel
/-- R178's example. -/
theorem test_encSirc15 :
    (after .encSirc15 (withCmd "SIRC15" "97 00 00 00" "2E 00 00 00")).map (·.seq) =
      some (famPw (sircSpec 15) 0x3AE9 15) := by decide +kernel
/-- R179's example. -/
theorem test_encSirc20 :
    (after .encSirc20 (withCmd "SIRC20" "3A 1E 00 00" "7F 00 00 00")).map (·.seq) =
      some (famPw (sircSpec 20) 0xFEB8F 20) := by decide +kernel
/-- R180's example. -/
theorem test_encKaseikyo :
    (after .encKaseikyo (withCmd "Kaseikyo" "08 02 20 00" "3D 00 00 00")).map (·.seq) =
      some (famPd kaseikyoSpec 0x4004001BC0DB 48) := by decide +kernel
/-- R181's example. -/
theorem test_encRaw :
    (after .encRaw (withRaw "9000 4500 560")).map (·.seq) = some [9000, 4500, 560, 1] := by decide +kernel
/-- R170's example: the name in lower case is not supported, and `SEQ` stays. -/
theorem test_encAuto_case :
    (after .encAuto { withCmd "nec" "00" "FF" with seq := [7, 7] }).map (fun t => (t.result, t.seq)) =
      some (.eNotSupported, [7, 7]) := by decide +kernel
/-- R170: a raw record replays its data. -/
theorem test_encAuto_raw :
    (after .encAuto (withRaw "9000 4500 560 0 560 1690 560")).map (·.seq) =
      some [9000, 4500, 1120, 1690, 560, 1] := by decide +kernel
/-- R200's example: the first call configures. -/
theorem test_txEnsure :
    (after .txEnsure { granted with args := { blankArgs with carrierHz := 38000, duty := mkRat 33 100 } }).map
      (fun t => t.tx.trace) =
      some [.config { carrierHz := 38000, duty := mkRat 33 100, invert := false }] := by decide +kernel
/-- R306: a refused allocation is a fault. -/
theorem test_txEnsure_fault :
    (after .txEnsure { State.reset with env := { freeEnv with allocs := [false] } }).map
      (fun t => (t.result, t.fault)) = some (.fHwAlloc, true) := by decide +kernel
/-- R201's example: the frame. -/
theorem test_txSend :
    (after .txSend { sending with seq := [9000, 4500, 560, 1] }).map (fun t => t.tx.trace.drop 1) =
      some [.frame [(true, 9000), (false, 4500), (true, 560), (false, 1)]] := by decide +kernel
/-- R314: an empty sequence is refused before the allocation. -/
theorem test_txSend_empty :
    (after .txSend State.reset).map (fun t => (t.result, t.tx.alloc)) = some (.eEmptySeq, false) := by decide +kernel
/-- R205: `REPEAT + 1` frames, then the pin low. -/
theorem test_txSendcmd :
    (after .txSendcmd { withRaw "9000 4500" with repeats := 1 }).map (fun t => t.tx.trace.drop 1) =
      some [.frame [(true, 9000), (false, 4500)], .frame [(true, 9000), (false, 4500)], .pinLow] := by decide +kernel
/-- R206: the pin goes low also when the encoder fails. -/
theorem test_txSendcmd_unsupported :
    (after .txSendcmd (withCmd "Foo" "" "")).map (fun t => (t.result, t.tx.trace)) =
      some (.eNotSupported, [.pinLow]) := by decide +kernel
/-- R204, 93_implementation_defined.md 1.3: after a wait that elapsed, the frame may still complete before the pin goes
low, or after it. -/
theorem test_txSendcmd_timeout :
    [true, false].map (fun e => (after .txSendcmd { withRaw "9 4" with
      maxWait := some 0, env := { freeEnv with allocs := [true], waits := [true], plays := [1], engine := [e] } }).map
        (fun t => (t.result, t.tx.trace.drop 1))) =
      [some (.eTimeout, [.frame [(true, 9), (false, 4)], .pinLow]), some (.eTimeout, [.pinLow])] := by decide +kernel
/-- R220's example. -/
theorem test_rxInit :
    (after .rxInit { granted with args := { blankArgs with rx := rxExample } }).map (fun t => (t.rx.state, qFull t.rx)) =
      some (.armed, false) := by decide +kernel
/-- R227: the batch is taken and the channel stays idle. -/
theorem test_rxPoll :
    (after .rxPoll (pendingRx batchExample)).map (fun t => (t.value, t.rx.state, qFull t.rx)) =
      some (.batch batchExample, .idle, false) := by decide +kernel
/-- R323: no rearm while a batch is pending. -/
theorem test_rxRearm_backpressure :
    (after .rxRearm (pendingRx batchExample)).map (·.result) = some .eBackpressure := by decide +kernel
/-- R228: an idle channel arms. -/
theorem test_rxRearm : (after .rxRearm idleRx).map (fun t => t.rx.state) = some .armed := by decide +kernel
/-- R229: the batch is lost, the channel not rearmed. -/
theorem test_rxDrain :
    (after .rxDrain (pendingRx batchExample)).map (fun t => (t.rx.state, qFull t.rx)) = some (.idle, false) := by
  decide +kernel
/-- R230: drained and armed. -/
theorem test_rxRestart :
    (after .rxRestart (pendingRx batchExample)).map (fun t => (t.rx.state, qFull t.rx)) = some (.armed, false) := by
  decide +kernel
/-- R231: everything freed. -/
theorem test_rxDeinit :
    (after .rxDeinit (pendingRx batchExample)).map (fun t => (t.rx.state, t.rx.queue)) = some (.uninit, .absent) := by
  decide +kernel
/-- R226's worked example: the waveform gives the batch. -/
theorem test_capture : captureOf rxExample waveExample = some batchExample := by decide +kernel
/-- R250's worked example. -/
theorem test_norm :
    (after .norm { granted with args := { blankArgs with
        batch := { symbols := [⟨300, false, 9000, true⟩, ⟨4500, false, 560, true⟩, ⟨0, false, 0, false⟩],
                   truncated := false } } }).map (fun t => (t.seq, t.result)) =
      some ([9000, 4500, 560, 1], .ok) := by decide +kernel
/-- R251's example. -/
theorem test_seqTotext :
    (after .seqTotext { granted with seq := [889, 1778, 889, 1] }).map (·.value) =
      some (.text "889 1778 889 1".toList) := by decide +kernel
/-- R252's example. -/
theorem test_seqFromtext :
    (after .seqFromtext { granted with args := { blankArgs with text := "100 0 200 50".toList } }).map (·.seq) =
      some [300, 50] := by decide +kernel
/-- R252: a token that is no numeral. -/
theorem test_seqFromtext_malformed :
    (after .seqFromtext { granted with args := { blankArgs with text := "12 -3".toList } }).map (·.result) =
      some .eMalformedHex := by decide +kernel
/-- R256's example: the received SIRC frame, its last space read as the pad. -/
theorem test_decMatch :
    (after .decMatch { granted with seq := [2400, 600, 1200, 600, 600, 600, 1200, 600, 600, 600, 1200, 600, 600, 600, 600,
        600, 1200, 600, 600, 600, 600, 600, 600, 600, 600, 1] }).map (·.value) =
      some (.decoded "SIRC".toList 0xA90 12) := by decide +kernel
/-- R253: an undecoded capture. -/
theorem test_decMatch_none :
    (after .decMatch { granted with seq := [9000, 4500, 560, 1] }).map (·.result) = some .eNotSupported := by
  decide +kernel
/-- R270: an empty session, the receiver armed. -/
theorem test_sesEnter :
    (after .sesEnter granted).map (fun t => (t.ses.state, t.rx.state)) = some (.idle, .armed) := by decide +kernel
/-- R271's example. -/
theorem test_sesCapture :
    (after .sesCapture { pendingRx batchExample with ses := { State.reset.ses with state := .idle } }).map
      (fun t => (t.ses.last, t.ses.state)) = some ("9000 4500 560 1".toList, .held) := by decide +kernel
/-- R271: a capture with no mark is dropped. -/
theorem test_sesCapture_empty :
    (after .sesCapture { pendingRx idleBatch with ses := { State.reset.ses with state := .idle } }).map
      (fun t => (t.ses.state, t.rx.state)) = some (.idle, .armed) := by decide +kernel
/-- R272's example: the six lines. -/
theorem test_sesCommit :
    (after .sesCommit held).map (fun t => t.ses.pending) =
      some "name: power\ntype: raw\nfrequency: 38000\nduty_cycle: 0.33\ndata: 9000 4500 560 1\n#\n".toList := by
  decide +kernel
/-- R273. -/
theorem test_sesDiscard :
    (after .sesDiscard held).map (fun t => (t.ses.state, t.ses.count, t.rx.state)) = some (.idle, 0, .armed) := by
  decide +kernel
/-- R274's example: the ten lines. -/
theorem test_sesFlush :
    (after .sesFlush committed).map (fun t => t.storage.lookup "/tv.ir".toList) =
      some (some ("Filetype: Bruce IR File\nVersion: 1\n#\n# tv\nname: power\ntype: raw\n".toList ++
        "frequency: 38000\nduty_cycle: 0.33\ndata: 9000 4500 560 1\n#\n".toList)) := by decide +kernel
/-- 93_implementation_defined.md 1.2: a device name with a line break. -/
theorem test_sesFlush_devname :
    (after .sesFlush { committed with args := { committed.args with devname := "a\nb".toList } }).map
      (fun t => (t.result, t.handed)) = some (.eBadState, []) := by decide +kernel
/-- R275. -/
theorem test_sesExit :
    (after .sesExit { held with cat := [blankCommand []] }).map (fun t => (t.ses.state, t.rx.state, t.cat)) =
      some (.none, .uninit, []) := by decide +kernel
/-- R276, R281: the records of the file. -/
theorem test_rplLoad : (after .rplLoad (replaying [])).map (·.cat) = some replayed := by decide +kernel
/-- R277: the recent buffer takes the command. -/
theorem test_rplSelect :
    (after .rplSelect { sending with cat := replayed }).map (·.recents) = some (replayed.take 1) := by decide +kernel
/-- R278: both records, the second skipped. -/
theorem test_rplSpamall :
    (after .rplSpamall (replaying [[], []])).map (fun t => (t.recIdx, t.tx.trace.drop 1)) =
      some (2, [.frame [(true, 9000), (false, 4500)], .pinLow, .pinLow]) := by decide +kernel
/-- R279: paused, resumed, then cancelled before the second record. -/
theorem test_rplSpamall_cancel :
    (after .rplSpamall (replaying
      [[{ noFlags with select := true }, { noFlags with select := true }], [{ noFlags with escape := true }]])).map
      (fun t => (t.recIdx, t.result)) = some (1, .eCancelled) := by decide +kernel
/-- R280: the newest first. -/
theorem test_recInsert :
    (after .recInsert { granted with cmd := blankCommand ['p'], recents := [blankCommand ['q']] }).map (·.recents) =
      some [blankCommand ['p'], blankCommand ['q']] := by decide +kernel

/-- The first step after reset runs an operation word (R99): ENC.NEC of empty operands. -/
theorem test_first_step :
    (match step (State.reset.withFetchWord 8 0x10) with
      | .next t => some t.result
      | .fault _ => none
      | .refused _ => none) = some .eMalformedHex := by decide +kernel

/-! ## For each statement, states that meet its hypotheses, clause by clause -/

/-- The reset state with one event to come. -/
def upcoming (e : Event) : State := { State.reset with agenda := [e] }

/-- A batch of 256 records, truncated: the longest a capture may deliver. -/
def fullBatch : RawBatch := { symbols := List.replicate 256 ⟨1, true, 1, false⟩, truncated := true }

/-- A transmit configuration and the argument latches that ask for it. -/
def c38 : TxConfig := { carrierHz := 38000, duty := mkRat 33 100, invert := false }
def args38 : Args := { blankArgs with carrierHz := 38000, duty := mkRat 33 100 }

/-- Neither allocation nor storage answers favourably, and the file does not open. -/
def refusing : State :=
  { State.reset with env := { freeEnv with allocs := [false], stores := [false], reads := [none], waits := [true] } }

theorem witness_SelectorCodecAgrees : decode [0x63#8, 0x01#8] = .ok (.recInsert, [0x01#8]) := rfl

theorem witness_ReservedSelectorNotSupported :
    ∀ op ∈ [0x00#8, 0x03#8, 0x07#8, 0x1A#8, 0x64#8, 0xFF#8],
      State.reset.fault = false ∧ ({ State.reset with port := some op } : State).port = some op ∧
      op.toNat ∉ [0x01, 0x02, 0x04, 0x05, 0x06, 0x10, 0x11, 0x12, 0x13, 0x14, 0x15, 0x16, 0x17, 0x18, 0x19, 0x1F,
        0x20, 0x21, 0x22, 0x30, 0x31, 0x32, 0x33, 0x34, 0x35, 0x40, 0x41, 0x42, 0x43,
        0x50, 0x51, 0x52, 0x53, 0x54, 0x55, 0x60, 0x61, 0x62, 0x63] := by decide +kernel

theorem witness_StepRunsDecoded :
    ({ State.reset with port := some 0x01#8 } : State).port = some 0x01#8 ∧
      decode [0x01#8] = .ok (.primAppendrun, []) := ⟨rfl, rfl⟩

theorem witness_HostEventsWriteTheirRegisters :
    State.reset.port = none ∧ State.reset.agenda = [] ∧
    (upcoming (.hostOp 0x10#8)).agenda = [.hostOp 0x10#8] ∧
    (upcoming (.hostCommand (blankCommand []))).agenda = [.hostCommand (blankCommand [])] ∧
    (upcoming (.hostArgs blankArgs)).agenda = [.hostArgs blankArgs] ∧
    (upcoming (.hostRepeat 2)).agenda = [.hostRepeat 2] ∧
    (upcoming (.hostMaxWait (some 0))).agenda = [.hostMaxWait (some 0)] ∧
    (∀ q ∈ [[1, 2], [1, 2, 3]], (upcoming (.hostSeq q)).agenda = [.hostSeq q]) ∧
    TimingSeq.wf [1, 2] = true ∧ TimingSeq.wf [1, 2, 3] = false ∧
    (upcoming (.hostShow (.text ['a']))).agenda = [.hostShow (.text ['a'])] ∧
    (upcoming (.hostChoice [['a']])).agenda = [.hostChoice [['a']]] ∧
    (upcoming (.hostText ['a'] 5 [])).agenda = [.hostText ['a'] 5 []] ∧
    (upcoming (.configurePin 0 1)).agenda = [.configurePin 0 1] := by decide +kernel

theorem witness_PollReadsAndClearsFlag :
    step (upcoming .txComplete) = .next State.reset ∧ (upcoming .txComplete).port ≠ some 0x62#8 ∧
    (∀ f, (upcoming .txComplete).agenda.head? ≠ some (.input f)) ∧
    (∀ n, (upcoming .txComplete).agenda.head? ≠ some (.hostPoll n)) ∧
    State.reset.port = none ∧ (upcoming (.input noFlags)).agenda = [.input noFlags] ∧
    ∀ n ∈ [InputName.next, .previous, .select, .escape], (upcoming (.hostPoll n)).agenda = [.hostPoll n] :=
  ⟨rfl, by decide, nofun, nofun, rfl, rfl, by decide +kernel⟩

theorem witness_FaultedBlockRefusesEverything :
    ({ State.reset with fault := true, port := some 0xFF#8 } : State).fault = true ∧
      ({ State.reset with fault := true, port := some 0xFF#8 } : State).port = some 0xFF#8 ∧
      step { upcoming .txComplete with fault := true } = .next { State.reset with fault := true } := ⟨rfl, rfl, rfl⟩

theorem witness_StepKeepsSequenceAndSession :
    step (held) = .next held ∧ SeqSafe held ∧ SesSafe held :=
  ⟨rfl, rfl, nofun, ⟨fun _ => rfl, fun _ => rfl⟩, ⟨[9000, 4500, 560, 1], by decide, by decide⟩, fun _ => nofun⟩

theorem witness_StepKeepsChannels :
    step (pendingRx batchExample) = .next (pendingRx batchExample) ∧ TxSafe (pendingRx batchExample) ∧
      RxSafe (pendingRx batchExample) :=
  ⟨rfl, ⟨nofun, fun h => absurd rfl h, nofun, fun _ => rfl, by decide⟩, by decide, by decide, by decide, fun _ => nofun,
    fun b h => by cases h; decide, by decide⟩

theorem witness_StepKeepsLists :
    step (replaying []) = .next (replaying []) ∧ ListsSafe (replaying []) ∧ TablesSafe (replaying []) ∧
      (replaying []).paused = false := ⟨rfl, ⟨by decide, by decide, by decide⟩, ⟨rfl, rfl⟩, rfl⟩

theorem witness_TraceGrowsAndTableStays : step granted = .next granted := rfl

theorem witness_TransmitAndReceiveIndependent :
    (∀ i ∈ [Instr.txEnsure, .txSend, .txSendcmd], (after i { granted with args := args38, seq := [1, 1] }).isSome) ∧
    (∀ i ∈ [Instr.rxInit, .rxPoll, .rxRearm, .rxDrain, .rxRestart, .rxDeinit], (after i granted).isSome) := by
  decide +kernel

theorem witness_AppendrunSplitsPulse : granted.fault = false := rfl

theorem witness_CoalesceSumsGroups : granted.fault = false := rfl

theorem witness_PulseDistanceBuilder : granted.fault = false := rfl

theorem witness_PulseWidthBuilder : granted.fault = false := rfl

theorem witness_BiphaseBuilder : granted.fault = false := rfl

theorem witness_NormalizeWritesSequence : granted.fault = false := rfl

theorem witness_HexFieldsAreNumerals :
    "0aF".toList.map Char.toLower = List.replicate 1 '0' ++ Nat.toDigits 16 0xAF ∧
    "1000".toList[2]? = some '0' ∧ "1000".toList[3]? = some '0' ∧
    (∀ k, 2 ≤ k → ¬("00F".toList[k]? = some '0' ∧ "00F".toList[k + 1]? = some '0')) :=
  ⟨by decide +kernel, rfl, rfl, fun k h => by
    match k, h with
    | 2, _ => decide
    | k + 3, _ => simp⟩

theorem witness_NecEncoding :
    (withCmd "NEC" "00" "FF").fault = false ∧
    (withCmd "NEC" "00" "FF").params.table.lookup "NEC".toList = some necSpec ∧
    firstByte (withCmd "NEC" "00" "FF").cmd.address = some 0 ∧
    firstByte (withCmd "NEC" "00" "FF").cmd.command = some 255 ∧
    firstByte (withCmd "NEC" "" "FF").cmd.address = none ∧ firstByte (withCmd "NEC" "00" "G").cmd.command = none := by
  decide +kernel

theorem witness_NecextEncoding :
    (withCmd "NECext" "FFFF" "1000").fault = false ∧
    (withCmd "NECext" "FFFF" "1000").params.table.lookup "NECext".toList = some necextSpec ∧
    hexval (trunc00 (withCmd "NECext" "FFFF" "1000").cmd.address) = some 0xFFFF ∧
    hexval (trunc00 (withCmd "NECext" "FFFF" "1000").cmd.command) = some 0x10 ∧
    hexval (trunc00 (withCmd "NECext" " " "1000").cmd.address) = none ∧
    hexval (trunc00 (withCmd "NECext" "FFFF" "").cmd.command) = none := by decide +kernel

theorem witness_Rc5AndRc6Encoding :
    (withCmd "RC5" "1F" "3F").fault = false ∧
    (withCmd "RC5" "1F" "3F").params.table.lookup "RC5".toList = some (rc5Spec .listed15) ∧
    firstByte (withCmd "RC5" "1F" "3F").cmd.address = some 31 ∧
    firstByte (withCmd "RC5" "1F" "3F").cmd.command = some 0x3F ∧
    firstByte (withCmd "RC5" "1F" "40").cmd.command = some 0x40 ∧
    (withCmd "RC5" "1F" "3F").params.rc5Layout = .listed15 ∧
    ({ granted with params := paramsFor .std14 } : State).params.rc5Layout = .std14 ∧
    ({ granted with params := paramsFor .std14 } : State).params.table.lookup "RC5".toList = some (rc5Spec .std14) ∧
    firstByte (withCmd "RC5" "" "40").cmd.address = none ∧
    granted.params.table.lookup "RC6".toList = some rc6Spec := by decide +kernel

theorem witness_Samsung32Encoding :
    (withCmd "Samsung32" "D3" "1234").params.table.lookup "Samsung32".toList = some samsung32Spec ∧
    hexval (withCmd "Samsung32" "D3" "1234").cmd.address = some 0xD3 ∧
    hexval (withCmd "Samsung32" "D3" "1234").cmd.command = some 0x1234 ∧
    ndigits (withCmd "Samsung32" "D3" "1234").cmd.address = 2 ∧
    ndigits (withCmd "Samsung32" "D3" "1234").cmd.command = 4 ∧
    4 < ndigits (withCmd "Samsung32" "12345" "1").cmd.address ∧
    4 < ndigits (withCmd "Samsung32" "1" "12345").cmd.command ∧
    hexval (withCmd "Samsung32" "" "1").cmd.address = none ∧
    hexval (withCmd "Samsung32" "1" "x").cmd.command = none := by decide +kernel

theorem witness_SircEncoding :
    (∀ e ∈ [("SIRC", 12), ("SIRC15", 15), ("SIRC20", 20)],
      (withCmd e.1 "FF FF FF FF" "0").params.table.lookup e.1.toList = some (sircSpec e.2)) ∧
    hexval (withCmd "SIRC" "FF FF FF FF" "0").cmd.address = some 0xFFFFFFFF ∧
    hexval (withCmd "SIRC" "FF FF FF FF" "0").cmd.command = some 0 ∧
    ndigits (withCmd "SIRC" "FF FF FF FF" "0").cmd.address = 8 ∧
    8 < ndigits (withCmd "SIRC" "123456789" "0").cmd.address ∧
    8 < ndigits (withCmd "SIRC" "0" "123456789").cmd.command ∧
    hexval (withCmd "SIRC" "" "0").cmd.address = none ∧ hexval (withCmd "SIRC" "0" "-1").cmd.command = none := by
  decide +kernel

theorem witness_KaseikyoEncoding :
    (withCmd "Kaseikyo" "1A 54 32 02" "A5 01 00 00").params.table.lookup "Kaseikyo".toList = some kaseikyoSpec ∧
    hexval (withCmd "Kaseikyo" "1A 54 32 02" "A5 01 00 00").cmd.address = some 0x1A543202 ∧
    hexval (withCmd "Kaseikyo" "1A 54 32 02" "A5 01 00 00").cmd.command = some 0xA5010000 ∧
    ndigits (withCmd "Kaseikyo" "1A 54 32 02" "A5 01 00 00").cmd.address = 8 ∧
    (withCmd "Kaseikyo" "1A 54 32 02" "A5 01 00 00").params.kaseikyo = defaultKaseikyo ∧
    0x0232541A = bswap32 0x1A543202 ∧ 0x1A5 = bswap32 0xA5010000 ∧ 0x3254 = 0x0232541A / 2 ^ 8 % 2 ^ 16 ∧
    8 < ndigits (withCmd "Kaseikyo" "123456789" "0").cmd.address ∧
    hexval (withCmd "Kaseikyo" "" "0").cmd.address = none := by decide +kernel

theorem witness_RawEncoding :
    durations (withRaw "70000 0").cmd.data = some [70000, 0] ∧ durations (withRaw "").cmd.data = some [] ∧
      durations (withRaw "5 -3").cmd.data = none := by decide +kernel

theorem witness_AutoDispatchesOnTypeAndName :
    (withRaw "1").cmd.type = "raw".toList ∧ durations (withRaw "1").cmd.data = some [1] ∧
    State.reset.cmd.type ≠ "raw".toList ∧ State.reset.cmd.type ≠ "parsed".toList ∧
    (∀ n ∈ ["NEC", "NECext", "RC5", "RC6", "Samsung32", "SIRC", "SIRC15", "SIRC20", "Kaseikyo"],
      (withCmd n "00" "00").cmd.type = "parsed".toList ∧ (withCmd n "00" "00").cmd.protocol = n.toList ∧
      (withCmd n "00" "00").params.table.lookup n.toList ≠ none) ∧
    (withCmd "nec" "" "").params.table.lookup (withCmd "nec" "" "").cmd.protocol = none ∧
    (withCmd "X" "" "").cmd.protocol ∉ ["NEC".toList, "NECext".toList, "RC5".toList, "RC6".toList, "Samsung32".toList,
      "SIRC".toList, "SIRC15".toList, "SIRC20".toList, "Kaseikyo".toList] := by decide +kernel

theorem witness_MissingRowNotSupported :
    ∀ n ∈ ["NEC", "NECext", "RC5", "RC6", "Samsung32", "SIRC", "SIRC15", "SIRC20", "Kaseikyo"],
      ({ granted with params := { defaultParams with table := [] } } : State).params.table.lookup n.toList = none := by
  decide +kernel

theorem witness_BitPermutations : (47 : Nat) < 48 ∧ (255 : Nat) < 256 := by decide

theorem witness_SequenceTextOperations :
    ({ granted with args := { blankArgs with text := "9 4".toList } } : State).fault = false ∧
    durations "9 4".toList = some [9, 4] ∧ TimingSeq.wf [9, 4] = true ∧
    "9 4".toList = [' '].intercalate ([9, 4].map (Nat.toDigits 10)) ∧
    ∃ c ∈ "12 x".toList, c ≠ ' ' ∧ c ∉ "0123456789".toList :=
  ⟨rfl, by decide +kernel, by decide, rfl, 'x', by decide, by decide, by decide⟩

theorem witness_EnsureConfiguresByDifference :
    c38 = { carrierHz := args38.carrierHz, duty := args38.duty, invert := args38.invert } ∧
    sending.tx.alloc = true ∧ sending.tx.cfg ≠ some c38 ∧
    ({ sending with tx := { sending.tx with cfg := some c38 } } : State).tx.cfg = some c38 ∧
    granted.tx.alloc = false ∧ (drawAlloc granted).1 = true ∧
    refusing.tx.alloc = false ∧ (drawAlloc refusing).1 = false ∧
    (after .txEnsure { granted with args := args38 }).map (·.result) = some .ok := by decide +kernel

theorem witness_AllocationFailureFaults :
    refusing.fault = false ∧ (drawAlloc refusing).1 = false ∧ refusing.tx.alloc = false ∧ refusing.tx.busy = false ∧
    ({ refusing with seq := [1, 1] } : State).args.seq.getD [1, 1] ≠ [] ∧
    encAuto refusing.params (withRaw "5 5").cmd = .ok [5, 5] ∧ refusing.rx.state = .uninit ∧
    refusing.ses.state = .none ∧ ({ refusing with cat := replayed } : State).cat[refusing.args.index]? = replayed[0]? ∧
    encAuto refusing.params (withRaw "9000 4500").cmd = .ok [9000, 4500] :=
  ⟨rfl, rfl, rfl, rfl, nofun, rfl, rfl, rfl, rfl, by decide +kernel⟩

theorem witness_SendPlaysTheFrame :
    granted.fault = false ∧ granted.maxWait = none ∧ (drawAlloc granted).1 = true ∧ sending.tx.alloc = true ∧
    ({ sending with args := { args38 with seq := some [100, 0, 200] } } : State).args.seq = some [100, 0, 200] ∧
    sending.args.seq = none ∧ [100, 0, 200] ≠ [] := by decide +kernel

theorem witness_PackedFrameIsTheSequence :
    TimingSeq.wf [1, 65535] = true ∧ ∀ r ∈ [mk 1, mk 65535, sp 1], 1 ≤ r.dur ∧ r.dur ≤ 65535 := by decide

/-- A frame in flight, its first pair being played. -/
def inFlight : State :=
  { sending with
    env := { freeEnv with engine := [true, false] }
    tx := { sending.tx with
      busy := true, cfg := some c38, buf := packedFrame [100, 200], played := 1, level := .carrierOn } }

/-- A finite wait that elapses, or not; the engine has played so many pairs. -/
def waiting (expires : Bool) (played : Nat) : State :=
  { granted with
    maxWait := some 0, env := { freeEnv with allocs := [true], waits := [expires], plays := [played], engine := [true] }
    seq := [1, 1] }

theorem witness_FiniteWaitMayTimeOut :
    (∀ e ∈ [true, false], (waiting e 1).maxWait = some 0 ∧ (drawAlloc (waiting e 1)).1 = true ∧
      (waiting e 1).args.seq.getD (waiting e 1).seq ≠ [] ∧
      (drawWait { waiting e 1 with env := (drawAlloc (waiting e 1)).2.env }).1 = e) ∧
    (∀ n ∈ [0, 1, 2, 3], (after .txSend (waiting true n)).map (fun t => (t.tx.played, t.tx.level)) =
      [some (0, .low), some (1, .carrierOn), some (2, .idleLevel), some (2, .idleLevel)][n]!) ∧
    inFlight.tx.alloc = true ∧ inFlight.tx.busy = true ∧ inFlight.port = none ∧ inFlight.fault = false ∧
    (pairsOf inFlight.tx.buf).drop inFlight.tx.played = [(false, 200)] ∧
    (∀ e ∈ [Event.txPlay, .txComplete], ({ inFlight with agenda := [e] } : State).agenda = [e]) ∧
    inFlight.tx.cfg = some c38 ∧ inFlight.tx.level = .carrierOn := by decide +kernel

theorem witness_EmptySequenceRefused : State.reset.args.seq.getD State.reset.seq = [] ∧ State.reset.seq = [] := by decide

theorem witness_SendcmdSendsRepeatPlusOneFrames :
    (withRaw "5 5").fault = false ∧ (withRaw "5 5").maxWait = none ∧ (drawAlloc (withRaw "5 5")).1 = true ∧
    encAuto (withRaw "5 5").params (withRaw "5 5").cmd = .ok [5, 5] ∧ (withRaw "5 5").cmd.type = "raw".toList ∧
    (withRaw "5 5").cmd.frequency = 0 ∧ (withCmd "RC5" "00" "0C").cmd.type ≠ "raw".toList ∧
    (withCmd "RC5" "00" "0C").params.table.lookup (withCmd "RC5" "00" "0C").cmd.protocol =
      some (rc5Spec .listed15) :=
  ⟨rfl, rfl, rfl, rfl, rfl, rfl, nofun, rfl⟩

theorem witness_SendcmdWithFiniteWait :
    (∀ e ∈ [true, false],
      ({ waiting true 0 with cmd := (withRaw "5 5").cmd, env := { (waiting true 0).env with engine := [e] } } : State).env.waits =
        [true] ++ [] ∧ [true].length = (waiting true 0).repeats + 1) ∧
    (after .txSendcmd { waiting true 0 with cmd := (withRaw "5 5").cmd }).map (fun t => (t.result, t.tx.trace.drop 1)) =
      some (.eTimeout, [.frame [(true, 5), (false, 5)], .pinLow]) := by decide +kernel

theorem witness_SendcmdLeavesEmitterOff :
    granted.fault = false ∧ encAuto granted.params (withCmd "Foo" "" "").cmd = .error .eNotSupported ∧
    encAuto granted.params (withRaw "").cmd = .ok [] ∧ granted.tx.busy = false ∧
    (∀ e ∈ [true, false], (drawEngine { inFlight with env := { freeEnv with engine := [e] } }).1 = e) ∧
    encAuto inFlight.params inFlight.cmd = .error .eNotSupported ∧
    (after .txSendcmd (withRaw "5 5")).map (·.fault) = some false := by decide +kernel

theorem witness_ReceiveInitAndDeinit :
    armed.rx.state ≠ .uninit ∧ granted.rx.state = .uninit ∧ (drawAlloc granted).1 = true ∧ armed.fault = false ∧
    refusing.rx.state = .uninit ∧ (drawAlloc refusing).1 = false := by
  decide +kernel

theorem witness_PollTakesTheBatch :
    granted.rx.state = .uninit ∧ (pendingRx fullBatch).rx.state ≠ .uninit ∧
    (pendingRx fullBatch).rx.queue = .full fullBatch ∧ armed.rx.state ≠ .uninit ∧ armed.rx.queue = .empty := by
  decide +kernel

theorem witness_RearmDrainAndRestart :
    granted.rx.state = .uninit ∧ (pendingRx batchExample).rx.queue = .full batchExample ∧
    (pendingRx batchExample).rx.state ≠ .uninit ∧ armed.rx.state = .armed ∧ armed.rx.queue = .empty ∧
    idleRx.rx.state = .idle ∧ idleRx.rx.queue = .empty ∧ idleRx.rx.queue ≠ .absent := by decide +kernel

theorem witness_CaptureCompletesOnceArmed :
    ({ armed with agenda := [.rxBatch fullBatch] } : State).agenda = [.rxBatch fullBatch] ∧ armed.port = none ∧
    fullBatch.wf = true ∧ batchExample.wf = true ∧ armed.rx.state = .armed ∧ armed.rx.callback = true ∧
    armed.rx.queue = .empty ∧ idleRx.rx.state ≠ .armed ∧
    ({ armed with rx := { armed.rx with queue := .full fullBatch } } : State).rx.queue = .full fullBatch ∧
    captureOf rxExample waveExample = some batchExample := by decide +kernel

theorem witness_LoopbackCaptureNormalises :
    ({ armed with agenda := [.rxWave (waveOf true [9000, 4500, 560, 600])] } : State).agenda =
      [.rxWave (waveOf rxExample.activeLow [9000, 4500, 560, 600])] ∧
    armed.fault = false ∧ armed.port = none ∧ armed.rx.state = .armed ∧ armed.rx.callback = true ∧
    armed.rx.queue = .empty ∧ armed.rx.cfg = some rxExample ∧ TimingSeq.wf [9000, 4500, 560, 600] = true ∧
    ∀ d ∈ [9000, 4500, 560, 600].dropLast,
      rxExample.minPulseNs ≤ 1000 * d ∧ 1000 * d ≤ rxExample.maxPulseNs ∧ 1000 * d < rxExample.idleThresholdNs := by
  decide +kernel

/-- A table of two rows in which the first does not decode the sequence and the second does. -/
def twoRows : State :=
  { granted with
    params := { defaultParams with table := [(sircName, sircSpec 12), (necName, { necSpec with nbits := 1 })] }
    seq := [9000, 4500, 560, 1690, 560, 1] }

theorem witness_DecodeTakesFirstMatchingRow :
    twoRows.fault = false ∧ twoRows.seq ≠ [] ∧ State.reset.seq = [] ∧
    decodeRow twoRows.params.decodeTolPct (sircSpec 12) twoRows.seq = none ∧
    decodeRow twoRows.params.decodeTolPct { necSpec with nbits := 1 } twoRows.seq = some 1 ∧
    validFrame twoRows.params.rc5Layout "Samsung32".toList 1 = true ∧
    (∀ r ∈ defaultTable .listed15, decodeRow 25 r.2 [1, 1] = none) ∧
    necSpec.family = .pd ∧ (sircSpec 12).family = .pw ∧ rc6Spec.family = .biphase ∧
    (∀ d ∈ [0xFF00FF00, 0xFF00FE00], validFrame .listed15 "NEC".toList d = decide (d = 0xFF00FF00)) ∧
    (∀ d ∈ [0x6000, 0x4000, 0x2000], validFrame .listed15 "RC5".toList d = decide (d = 0x6000)) ∧
    (∀ d ∈ [0x1FFFF, 0x20000], validFrame .std14 "RC6".toList d = decide (d = 0x1FFFF)) ∧
    validFrame .std14 "Kaseikyo".toList 0x4004001BC0DB = true ∧ "SIRC".toList ∉ ["NEC".toList, "RC5".toList] := by
  decide +kernel

theorem witness_PulseDecodersInvertBuilders :
    near 25 560 560 = true ∧ near 25 1690 560 = false ∧ near 25 560 1690 = false ∧ near 25 1200 600 = false ∧
    near 25 600 1200 = false ∧ necSpec.trailerMark ≠ 0 ∧ necSpec.headerMark ≠ 0 ∧ (sircSpec 12).trailerMark = 0 ∧
    (∀ m ∈ [419, 420, 700, 701], near 25 m 560 = decide (420 ≤ m ∧ m ≤ 700)) ∧
    decPd 25 { necSpec with nbits := 1 } [9000, 4500, 560, 1690, 560, 1] = some 1 ∧
    decPw 25 (sircSpec 1) [2400, 600, 1200, 1] = some 1 ∧
    ({ necSpec with trailerMark := 0, nbits := 1 } : ProtocolSpec).oneMark = necSpec.zeroMark ∧
    decPd 25 { necSpec with trailerMark := 0, nbits := 1 } [9000, 4500, 560, 1690] = none := by decide +kernel

theorem witness_BiphaseDecoderInvertsBuilder :
    1 ≤ rc6Spec.unit ∧ rc6Spec.headerSpace + 3 * rc6Spec.unit ≤ 65535 ∧ rc6Spec.headerMark ≤ 65535 ∧
    1 ≤ rc6Spec.headerSpace ∧ (rc5Spec .listed15).headerMark = 0 ∧
    level2 [889, 1778, 889, 1] 889 = .mark ∧ level2 [889, 1778, 889, 1] 1778 = .space ∧
    decBiphase 25 { rc5Spec .listed15 with nbits := 2 } [889, 1778, 889, 1] = some 2 ∧
    bitSent (rc5Spec .listed15) 0x680C 15 0 = (rc5Spec .listed15).oneActiveFirst := by decide +kernel

theorem witness_NamedPulseFramesDecode :
    granted.params = paramsFor .listed15 ∧ ("NEC".toList, necSpec) ∈ defaultTable .listed15 ∧
    necSpec.family ≠ .biphase ∧ 0xF708FB04 < 2 ^ necSpec.nbits ∧
    validFrame .listed15 "NEC".toList 0xF708FB04 = true ∧ fam necSpec 0xF708FB04 32 ≠ [] ∧
    ("NECext".toList, necextSpec) ∈ defaultTable .listed15 ∧
    validFrame .listed15 "NEC".toList (bitrev 32 0x28D72007) = false ∧
    validFrame .listed15 "NEC".toList (bitrev 32 0x00FF00FF) = true ∧
    firstByte (withCmd "NEC" "04" "08").cmd.address = some 4 ∧ firstByte (withCmd "NEC" "04" "08").cmd.command = some 8 ∧
    hexval (trunc00 (withCmd "NEC" "04" "08").cmd.address) = some 4 ∧ ndigits (withCmd "NEC" "04" "08").cmd.address = 2 ∧
    hexval (withCmd "NEC" "04" "08").cmd.command = some 8 := by decide +kernel

theorem witness_NamedBiphaseFramesDecode :
    granted.params = paramsFor .listed15 ∧ ("RC5".toList, rc5Spec .listed15) ∈ defaultTable .listed15 ∧
    (rc5Spec .listed15).family = .biphase ∧ 0x680C < 2 ^ (rc5Spec .listed15).nbits ∧
    validFrame .listed15 "RC5".toList 0x680C = true ∧ ("RC6".toList, rc6Spec) ∈ defaultTable .std14 ∧
    validFrame .std14 "RC6".toList 0x0000C = true ∧ validFrame .std14 "RC5".toList 0x300C = true ∧
    firstByte (withCmd "RC5" "1F" "3F").cmd.address = some 31 ∧ firstByte (withCmd "RC5" "1F" "40").cmd.command = some 64 ∧
    firstByte (withCmd "RC5" "1F" "3F").cmd.command = some 63 := by decide +kernel

theorem witness_SessionEnterAndExit :
    held.ses.state ≠ .none ∧ granted.ses.state = .none ∧ armed.rx.state ≠ .uninit ∧ armed.ses.state = .none ∧
    granted.rx.state = .uninit ∧ (drawAlloc granted).1 = true ∧ held.fault = false ∧
    refusing.ses.state = .none ∧ refusing.rx.state = .uninit ∧ (drawAlloc refusing).1 = false := by decide +kernel

theorem witness_SessionCapture :
    held.ses.state ≠ .idle ∧ committed.ses.state = .idle ∧ committed.rx.queue = .empty ∧
    ({ committed with rx := State.reset.rx } : State).rx.state = .uninit ∧
    ({ pendingRx batchExample with ses := committed.ses } : State).rx.queue = .full batchExample ∧
    coalesce (appendAll (batchCalls batchExample)) = [9000, 4500, 560, 1] ∧
    coalesce (appendAll (batchCalls idleBatch)) = [] := by decide +kernel

theorem witness_SessionCommitAndDiscard :
    committed.ses.state ≠ .held ∧ held.ses.state = .held ∧ '\n' ∉ held.cmd.name ∧ '\n' ∈ "a\nb".toList ∧
    held.rx.state = .idle ∧ qFull held.rx = false := by decide +kernel

theorem witness_SessionFlush :
    held.ses.state ≠ .idle ∧ committed.ses.state = .idle ∧ committed.ses.count ≠ 0 ∧ (drawStore committed).1 = true ∧
    (drawStore refusing).1 = false ∧ '\n' ∉ committed.args.devname ∧ '\n' ∈ "tv\nbits: 5".toList := by decide +kernel

theorem witness_FlushedFileParsesBack :
    committed.fault = false ∧ '\n' ∉ "power".toList ∧ '\r' ∉ "power".toList ∧
    committed.ses.pending =
      [("power".toList, [9000, 4500, 560, 1])].flatMap
        (fun g => signalText committed.params.rawDefaultFreq g.1 (render g.2)) ∧
    (after .sesFlush committed).map (fun t => (t.result, (drawRead t).1)) = some (.ok, some []) := by decide +kernel

theorem witness_LoadKeepsHundredRecords :
    (drawRead refusing).1 = none ∧ (drawRead (replaying [])).1 = some [] ∧ refusing.fault = false ∧
    (∀ l ∈ ["name: a".toList, "# b\rc".toList], '\n' ∉ l ∧ l.getLast? ≠ some '\r') ∧
    linesOf (fileOf "\r\n".toList ["a".toList, []]) = ["a".toList, []] ∧
    (∀ l ∈ ["name: a".toList, "x".toList], l.head? ≠ some '#') ∧ "name:".toList <+: "name: a".toList ∧
    (∀ key ∈ ["name:", "type:", "protocol:", "address:", "command:", "data:", "value:", "state:", "frequency:", "bits:"],
      ¬key.toList <+: "duty_cycle: 0.33".toList) := by decide +kernel

theorem witness_LoadKeepsHundredRecords_values :
    (∀ c ∈ [' '] ++ [], c = ' ') ∧ ['a', ' ', 'b'].head? ≠ some ' ' ∧ ['a', ' ', 'b'].getLast? ≠ some ' ' ∧
    ['3', '8'] = Nat.toDigits 10 38 ∧ ∃ c ∈ ['0', 'x'], c ∉ "0123456789".toList :=
  ⟨by simp, by decide, by decide, rfl, 'x', by decide, by decide⟩

theorem witness_SelectSendsAndRemembers :
    granted.cat.length ≤ granted.args.index ∧
    ({ granted with cat := [blankCommand []] } : State).cat[granted.args.index]? = some (blankCommand []) := by
  decide +kernel

/-- The same replay with the channel not yet allocated, the allocation granted or refused. -/
def replayingFresh (ok : Bool) : State :=
  { replaying [[], []] with tx := State.reset.tx, env := { (replaying [[], []]).env with allocs := [ok] } }

theorem witness_SpamallReplaysEveryRecord :
    refusing.env.reads = [none] ∧ (drawRead (replaying [[], []])).1 = some [] ∧ (replaying [[], []]).tx.alloc = true ∧
    replayed = parse (linesOf (((replaying []).storage.lookup (replaying []).args.path).getD [])) (replaying []).args.path ∧
    (replaying [[], []]).env.boundaries = List.replicate replayed.length [] ++ [] ∧
    (replaying []).flags.select = false ∧ (replaying []).flags.escape = false ∧
    (∀ ok ∈ [true, false], (drawRead (replayingFresh ok)).1 = some [] ∧ (replayingFresh ok).tx.alloc = false ∧
      (replayingFresh ok).tx.busy = false ∧ (drawAlloc (drawRead (replayingFresh ok)).2).1 = ok ∧
      (after .rplSpamall (replayingFresh ok)).map (·.fault) = some (!ok)) ∧
    encAuto defaultParams (withRaw "9000 4500").cmd = .ok [9000, 4500] := by decide +kernel

theorem witness_SpamallStopsAtBoundary :
    1 < replayed.length ∧ (replaying []).fault = false ∧
    (∀ samples ∈ [[({ noFlags with escape := true } : InputFlags)],
        [{ noFlags with select := true }, { noFlags with escape := true }],
        [{ noFlags with select := true }, { noFlags with select := true }], [{ noFlags with select := true }]],
      (replaying [[], samples]).env.boundaries = List.replicate 1 [] ++ samples :: [] ∧
      (replaying [samples, []]).env.boundaries = List.replicate 0 [] ++ samples :: List.replicate 1 [] ∧
      (replayAll (replayed.take 1) (replayStart (replaying [[], samples]))).fault = false) := by decide +kernel

theorem witness_RecentBufferKeepsNewestSixteen :
    (∃ e ∈ ({ granted with recents := [blankCommand []] } : State).recents, e.path = granted.cmd.path) ∧
    (∀ e ∈ granted.recents, e.path ≠ granted.cmd.path) ∧
    ([blankCommand ['p'], blankCommand ['q']].map (·.path)).Nodup := by decide +kernel

end Sys2Proof.Tests
end

section
/-! PROOFS. The scope: what a step does with an event of the agenda, and what the host's events write (O4). -/

namespace Sys2Proof.Machine

/-! ## A lookup after a write of a table -/

section
variable {κ β : Type} [DecidableEq κ] [BEq κ] [LawfulBEq κ] (lt : κ → κ → Bool) (k : κ)

/-- A key just written is found with its new entry, in canonical tables and in others. -/
@[simp] theorem lookup_tablePut_self (b : β) (t : List (κ × β)) : (tablePut lt k (some b) t).lookup k = some b := by
  induction t with
  | nil => simp [tablePut]
  | cons e rest ih =>
    obtain ⟨key, entry⟩ := e
    by_cases hkey : key = k
    · simp [tablePut, hkey]
    · by_cases hlt : lt k key = true
      · simp [tablePut, hkey, hlt]
      · have hbeq : (k == key) = false := beq_false_of_ne (Ne.symm hkey)
        simp [tablePut, hkey, hlt, List.lookup_cons, hbeq, ih]

/-- Writing a key, or taking it out, leaves what is found under every other key. -/
theorem lookup_tablePut_of_ne {other : κ} (h : other ≠ k) (v : Option β) (t : List (κ × β)) :
    (tablePut lt k v t).lookup other = t.lookup other := by
  have hbeq : (other == k) = false := beq_false_of_ne h
  induction t with
  | nil => cases v <;> simp [tablePut, List.lookup_cons, hbeq]
  | cons e rest ih =>
    obtain ⟨key, entry⟩ := e
    by_cases hkey : key = k
    · cases v <;> simp [tablePut, hkey, List.lookup_cons, hbeq]
    · by_cases hlt : lt k key = true
      · cases v <;> simp [tablePut, hkey, hlt, List.lookup_cons, hbeq]
      · simp [tablePut, hkey, hlt, List.lookup_cons, ih]

end

/-- `configurePin` sets the mode of its pin (00_scope.md R12, 10_state.md R27). -/
@[simp] theorem lookup_setPinMode_self (pin mode : Nat) (p : List (Nat × Nat)) :
    (setPinMode pin mode p).lookup pin = some mode :=
  lookup_tablePut_self _ pin mode p

/-- `configurePin` leaves the mode of every other pin (10_state.md R27). -/
theorem lookup_setPinMode_of_ne {pin other : Nat} (h : other ≠ pin) (mode : Nat) (p : List (Nat × Nat)) :
    (setPinMode pin mode p).lookup other = p.lookup other :=
  lookup_tablePut_of_ne _ pin h (some mode) p

/-! ## A step with no selector waiting (70_reset_and_hazards.md R340) -/

section
variable {s : State} (hport : s.port = none)
include hport

theorem step_of_port_none : step s = .next (agentStep s) := by
  simp [step, takeSelector, hport]

theorem step_of_agenda_nil (h : s.agenda = []) : step s = .next s := by
  simp [step_of_port_none hport, agentStep, h]

theorem step_of_agenda_cons {e : Event} {rest : List Event} (h : s.agenda = e :: rest) :
    step s = .next (perform e { s with agenda := rest }) := by
  simp [step_of_port_none hport, agentStep, h]

end

/-! ## The host's events -/

theorem writeHostSeq_of_wf {q : List Nat} (h : TimingSeq.wf q = true) (s : State) :
    writeHostSeq q s = { s with seq := q } := by
  simp [writeHostSeq, h]

theorem writeHostSeq_of_not_wf {q : List Nat} (h : TimingSeq.wf q = false) (s : State) : writeHostSeq q s = s := by
  simp [writeHostSeq, h]

/-- A prompt's answer is returned and its draw consumed; nothing else changes (00_scope.md R12; log 32). -/
theorem promptChoice_eq (labels : List Text) (s : State) :
    promptChoice labels s = { s with env := (drawChoice s).2.env, value := .chosen (drawChoice s).1 } := rfl

/-- As `promptChoice_eq`, for a typed text. -/
theorem promptText_eq (title : Text) (maxLen : Nat) (initial : Text) (s : State) :
    promptText title maxLen initial s = { s with env := (drawText s).2.env, value := .text (drawText s).1 } := rfl

/-- A draw does not look at the agenda: the event taken off it is of no account to the answer. -/
theorem drawChoice_setAgenda (s : State) (rest : List Event) :
    drawChoice { s with agenda := rest } = ((drawChoice s).1, { (drawChoice s).2 with agenda := rest }) := rfl

/-- As `drawChoice_setAgenda`, for a typed text. -/
theorem drawText_setAgenda (s : State) (rest : List Event) :
    drawText { s with agenda := rest } = ((drawText s).1, { (drawText s).2 with agenda := rest }) := rfl

/-- Settles O4: the step takes the agenda's head (`step_of_agenda_cons`) and performs it. The registers are plain
updates; `SEQ`, the prompts and the pins go through the lemmas above. -/
theorem hostEventsWriteTheirRegisters : Obligations.HostEventsWriteTheirRegisters := by
  intro s rest hport
  have take {e : Event} (h : s.agenda = e :: rest) := step_of_agenda_cons hport h
  refine ⟨step_of_agenda_nil hport, fun _ h => take h, fun _ h => take h, fun _ h => take h, fun _ h => take h,
    fun _ h => take h, fun q h => ⟨fun hwf => ?seqTaken, fun hwf => ?seqRefused⟩, fun _ h => take h,
    fun labels h => ?choice, fun title len initial h => ?text, fun pin mode h => ?pin⟩
  case seqTaken => rw [take h, perform, writeHostSeq_of_wf hwf]
  case seqRefused => rw [take h, perform, writeHostSeq_of_not_wf hwf]
  case choice => rw [take h, perform, promptChoice_eq, drawChoice_setAgenda]
  case text => rw [take h, perform, promptText_eq, drawText_setAgenda]
  case pin =>
    exact ⟨setPinMode pin mode s.pinModes, take h, lookup_setPinMode_self pin mode s.pinModes,
      fun _ hne => lookup_setPinMode_of_ne hne mode s.pinModes⟩

end Sys2Proof.Machine
end

section
/-! PROOFS. What every step keeps: `SEQ`, the session's data, the bounded lists, the tables, `PAUSED`, the lists that
only grow, and the parameters (O9, O11, O12). -/

namespace Sys2Proof.Machine

/-! ## Timing sequences (30_encoding.md R92, 40_primitives.md R133) -/

theorem runWf_iff (r : Run) : r.wf = true ↔ 1 ≤ r.dur ∧ r.dur ≤ Config.durMax := by
  simp [Run.wf]

theorem timingSeqWf_iff (q : TimingSeq) :
    TimingSeq.wf q = true ↔ q.length % 2 = 0 ∧ ∀ d ∈ q, 1 ≤ d ∧ d ≤ Config.durMax := by
  simp [TimingSeq.wf]

/-- One turn of COALESCE keeps every entry in range: the cap bounds it from above, a zero run makes no entry. -/
theorem coalesceStep_wf {out : List Run} (hout : ∀ r ∈ out, r.wf = true) (r : Run) :
    ∀ e ∈ coalesceStep out r, e.wf = true := by
  have capped {d : Nat} (hd : d ≠ 0) (p : Polarity) : ({ pol := p, dur := min Config.durMax d } : Run).wf = true := by
    rw [runWf_iff]
    simp only [Config.durMax]
    omega
  unfold coalesceStep
  split
  · exact hout
  · next hdur =>
    split
    · split
      · simp
      · simpa using capped hdur .mark
    · next last before =>
      rw [List.forall_mem_cons] at hout
      split
      · exact List.forall_mem_cons.2 ⟨capped (by omega) _, hout.2⟩
      · exact List.forall_mem_cons.2 ⟨capped hdur _, List.forall_mem_cons.2 hout⟩

theorem padSeq_even (q : List Nat) : (padSeq q).length % 2 = 0 := by
  unfold padSeq
  split
  · rw [List.length_append, List.length_singleton]
    omega
  · omega

theorem mem_padSeq {q : List Nat} {d : Nat} (h : d ∈ padSeq q) : d ∈ q ∨ d = Config.padSpace := by
  unfold padSeq at h
  split at h
  · simpa using h
  · exact .inl h

/-- Every result of COALESCE is a timing sequence (R133). -/
theorem coalesce_wf (runs : List Run) : TimingSeq.wf (coalesce runs) = true := by
  have entries : ∀ r ∈ runs.foldl coalesceStep [], r.wf = true :=
    List.foldlRecOn (motive := fun out => ∀ r ∈ out, r.wf = true) runs coalesceStep (by simp)
      (fun _ hout r _ => coalesceStep_wf hout r)
  refine (timingSeqWf_iff _).2 ⟨padSeq_even _, fun d hd => ?_⟩
  rcases mem_padSeq hd with h | rfl
  · obtain ⟨r, hr, rfl⟩ := List.mem_map.1 h
    exact (runWf_iff r).1 (entries r (List.mem_reverse.1 hr))
  · decide

/-! ## Encoders yield timing sequences (42_encoder_protocols.md R182) -/

/-- What an encoder answers, if it succeeds, is a timing sequence. -/
def YieldsSeq (r : Except ResultCode TimingSeq) : Prop := ∀ q, r = .ok q → TimingSeq.wf q = true

theorem yieldsSeq_error (c : ResultCode) : YieldsSeq (.error c) := nofun

theorem yieldsSeq_coalesce (runs : List Run) : YieldsSeq (.ok (coalesce runs)) := by
  rintro _ ⟨⟩
  exact coalesce_wf runs

theorem yieldsSeq_ite {c : Prop} [Decidable c] {a b : Except ResultCode TimingSeq} (ha : YieldsSeq a)
    (hb : YieldsSeq b) : YieldsSeq (if c then a else b) := by
  split
  · exact ha
  · exact hb

/-- The named encoders differ in their operands and their word; each frame is a family builder's, so COALESCE's. -/
theorem yieldsSeq_encodeWith {p : Params} {name : Text} {addr cmd : Option Nat}
    {runs : ProtocolSpec → Nat → Nat → List Run} :
    YieldsSeq (encodeWith p name addr cmd (fun row a c => coalesce (runs row a c))) := by
  rcases encodeWith_cases p name addr cmd (fun row a c => coalesce (runs row a c))
    with ⟨_, h⟩ | ⟨row, a, c, _, _, _, h⟩ | ⟨_, h⟩ <;> rw [h]
  · exact yieldsSeq_error _
  · exact yieldsSeq_coalesce _
  · exact yieldsSeq_error _

theorem yieldsSeq_fromText (t : Text) : YieldsSeq (fromText t) := by
  unfold fromText
  cases durations t with
  | none => exact yieldsSeq_error _
  | some v => exact yieldsSeq_coalesce _

/-- The dispatch of ENC.AUTO, branch by branch (R170). -/
theorem yieldsSeq_encAuto (p : Params) (x : Command) : YieldsSeq (encAuto p x) :=
  yieldsSeq_ite (yieldsSeq_fromText _) <| yieldsSeq_ite (yieldsSeq_error _) <| yieldsSeq_ite (yieldsSeq_error _) <|
  yieldsSeq_ite yieldsSeq_encodeWith <| yieldsSeq_ite yieldsSeq_encodeWith <|
  yieldsSeq_ite yieldsSeq_encodeWith <| yieldsSeq_ite yieldsSeq_encodeWith <|
  yieldsSeq_ite yieldsSeq_encodeWith <| yieldsSeq_ite yieldsSeq_encodeWith <|
  yieldsSeq_ite yieldsSeq_encodeWith <| yieldsSeq_ite yieldsSeq_encodeWith <|
  yieldsSeq_ite yieldsSeq_encodeWith (yieldsSeq_error _)

/-! ## Texts of the session (30_encoding.md R96, R108) -/

theorem render_ne_nil {q : List Nat} (h : q ≠ []) : render q ≠ [] := by
  match q with
  | [] => exact absurd rfl h
  | [d] => exact Nat.toDigits_ne_nil
  | d :: e :: rest => simp [render]

theorem commitBlock_ne_nil (freq : Nat) (name last : Text) : commitBlock freq name last ≠ [] := by
  simp [commitBlock, commitName]

/-! ## The recent buffer (46_session.md R280) -/

theorem recInsert_length_le {r : List Command} (c : Command) (h : r.length ≤ Config.recentCap) :
    (recInsert c r).length ≤ Config.recentCap := by
  rcases recInsert_cases c r with ⟨_, heq⟩ | ⟨_, heq⟩ <;> rw [heq]
  · exact h
  · exact List.length_take_le _ _

theorem recInsert_paths_nodup {r : List Command} (c : Command) (h : (r.map (·.path)).Nodup) :
    ((recInsert c r).map (·.path)).Nodup := by
  rcases recInsert_cases c r with ⟨_, heq⟩ | ⟨hnew, heq⟩ <;> rw [heq]
  · exact h
  · rw [List.map_take]
    have all : ((c :: r).map (·.path)).Nodup := List.nodup_cons.2 ⟨by simpa using hnew, h⟩
    exact all.sublist (List.take_sublist ..)

/-! ## The relation of a state and what comes after it -/

/-- What an operation or an event keeps, from the state `s` before it to the state `t` after it. It does not speak of
the other registers, which may take any value. -/
structure Keeps (s t : State) : Prop where
  seq : SeqSafe s → SeqSafe t
  ses : SesSafe s → SesSafe t
  lists : ListsSafe s → ListsSafe t
  tables : TablesSafe s → TablesSafe t
  paused : s.paused = false → t.paused = false
  trace : s.tx.trace <+: t.tx.trace
  handed : s.handed <+: t.handed
  shown : s.shown <+: t.shown
  params : t.params = s.params

namespace Keeps

theorem refl (s : State) : Keeps s s :=
  { seq := id, ses := id, lists := id, tables := id, paused := id, trace := List.prefix_rfl,
    handed := List.prefix_rfl, shown := List.prefix_rfl, params := rfl }

theorem trans {s t u : State} (h : Keeps s t) (h' : Keeps t u) : Keeps s u :=
  { seq := h'.seq ∘ h.seq
    ses := h'.ses ∘ h.ses
    lists := h'.lists ∘ h.lists
    tables := h'.tables ∘ h.tables
    paused := h'.paused ∘ h.paused
    trace := h.trace.trans h'.trace
    handed := h.handed.trans h'.handed
    shown := h.shown.trans h'.shown
    params := h'.params.trans h.params }

/-- The end of an operation writes `RESULT` and the value port, of which nothing is kept (60_exceptions.md R315). -/
theorem finish {s : State} {e : Ended} (h : Keeps s e.st) : Keeps s (finish e) := { h with }

/-! A write of one register: `setSeq` and the like say what it asks of the value written, if anything. -/

theorem setSeq (s : State) {q : TimingSeq} (h : TimingSeq.wf q = true) : Keeps s { s with seq := q } :=
  { refl s with seq := fun _ => h }

/-- A write of the transmit side that leaves the trace or makes it longer. -/
theorem setTx (s : State) {u : TxUnit} (h : s.tx.trace <+: u.trace) : Keeps s { s with tx := u } :=
  { refl s with trace := h }

theorem setEnv (s : State) (v : Env) : Keeps s { s with env := v } := { refl s with }

theorem setRx (s : State) (u : RxUnit) : Keeps s { s with rx := u } := { refl s with }

theorem setCmd (s : State) (c : Command) : Keeps s { s with cmd := c } := { refl s with }

theorem setRecIdx (s : State) (i : Nat) : Keeps s { s with recIdx := i } := { refl s with }

theorem setPort (s : State) (p : Option OpByte) : Keeps s { s with port := p } := { refl s with }

theorem setAgenda (s : State) (l : List Event) : Keeps s { s with agenda := l } := { refl s with }

theorem unpause (s : State) : Keeps s { s with paused := false } := { refl s with paused := fun _ => rfl }

theorem setSes (s : State) {z : Session} (h : SesSafe s → SesSafe { s with ses := z }) :
    Keeps s { s with ses := z } :=
  { refl s with ses := h }

theorem setStorage (s : State) (path : Text) (content : Option Text) :
    Keeps s { s with storage := storagePut path content s.storage } :=
  { refl s with tables := fun ⟨hst, hpin⟩ => ⟨storagePut_wf path content s.storage hst, hpin⟩ }

theorem insertRecent (s : State) (c : Command) : Keeps s { s with recents := recInsert c s.recents } :=
  { refl s with lists := fun ⟨hcat, hlen, hpaths⟩ =>
      ⟨hcat, recInsert_length_le c hlen, recInsert_paths_nodup c hpaths⟩ }

end Keeps

theorem enterFault_keeps (s : State) : Keeps s (enterFault s).st := { Keeps.refl s with }

theorem store_keeps (path text : Text) (s : State) : Keeps s (store path text s).2 := by
  rw [store_eq]
  exact { Keeps.setStorage s path _ with handed := List.prefix_append .. }

theorem writeSeq_keeps {r : Except ResultCode TimingSeq} (h : YieldsSeq r) (s : State) :
    Keeps s (writeSeq r s).st := by
  rcases writeSeq_cases r s with ⟨q, hq, heq⟩ | ⟨c, _, heq⟩ <;> rw [heq]
  · exact Keeps.setSeq s (h q hq)
  · exact Keeps.refl s

/-! ## Transmit: the trace only grows (43_transmit.md R200 to R207) -/

theorem txComplete_keeps (s : State) : Keeps s (txComplete s) := by
  rw [txComplete_eq]
  exact Keeps.setTx s (List.prefix_append ..)

theorem txPlayNext_keeps (s : State) : Keeps s (txPlayNext s) :=
  Keeps.setTx s (by simp)

theorem driveLow_keeps (s : State) : Keeps s (driveLow s) := Keeps.setTx s (List.prefix_append ..)

theorem txDrain_keeps (s : State) : Keeps s (txDrain s) := by
  unfold txDrain
  split
  · exact txComplete_keeps s
  · exact Keeps.refl s

theorem emitterOff_keeps (s : State) : Keeps s (emitterOff s) := by
  refine Keeps.trans ?_ (driveLow_keeps _)
  rcases txMayComplete_cases s with ⟨_, h⟩ | ⟨_, _, h⟩ | ⟨_, _, h⟩ <;> rw [h]
  · exact Keeps.refl s
  · exact (Keeps.setEnv s _).trans (txComplete_keeps _)
  · exact Keeps.setEnv s _

theorem txConfigure_keeps (c : TxConfig) (s : State) : Keeps s (txConfigure c s) := by
  rcases txConfigure_cases c s with ⟨_, h⟩ | ⟨_, h⟩ <;> rw [h]
  · exact Keeps.refl s
  · exact Keeps.setTx s (List.prefix_append ..)

theorem txEnsure_keeps (c : TxConfig) (s : State) : Keeps s (txEnsure c s).st := by
  have drawn : Keeps s (drawAlloc s).2 := Keeps.setEnv s _
  rcases txEnsure_cases c s with ⟨_, h⟩ | ⟨_, _, h⟩ | ⟨_, _, h⟩ <;> rw [h]
  · exact txConfigure_keeps c s
  · refine Keeps.trans ?_ (txConfigure_keeps c _)
    exact drawn.trans (Keeps.setTx _ List.prefix_rfl)
  · exact drawn.trans (enterFault_keeps _)

theorem txRequest_keeps (syms : List Symbol) (s : State) : Keeps s (txRequest syms s).st := by
  obtain ⟨s1, hs1, hcases⟩ := txRequest_cases syms s
  have requested : Keeps s s1 := hs1 ▸ Keeps.setTx s List.prefix_rfl
  rcases hcases with ⟨_, h⟩ | ⟨_, _, h⟩ | ⟨_, _, n, rfl, h⟩ <;> rw [h] <;> refine requested.trans ?_
  · exact txComplete_keeps s1
  · exact (Keeps.setEnv s1 _).trans (txComplete_keeps _)
  · exact ((Keeps.setEnv s1 _).trans (Keeps.setEnv _ _)).trans (Keeps.setTx _ (by simp))

theorem txSend_keeps (q : List Nat) (c : TxConfig) (s : State) : Keeps s (txSend q c s).st := by
  have ensured : Keeps s (txEnsure c (txDrain s)).st := (txDrain_keeps s).trans (txEnsure_keeps c _)
  rcases txSend_cases q c s with ⟨_, h⟩ | ⟨_, _, h⟩ | ⟨_, _, h⟩ <;> rw [h]
  · exact Keeps.refl s
  · exact ensured
  · exact ensured.trans (txRequest_keeps _ _)

theorem sendLoop_keeps (q : List Nat) (c : TxConfig) (n : Nat) (first : Option ResultCode) (s : State) :
    Keeps s (sendLoop q c n first s).st := by
  induction n generalizing first s with
  | zero => cases first <;> exact emitterOff_keeps s
  | succ n ih =>
    unfold sendLoop
    dsimp only
    split
    · exact txSend_keeps q c s
    · exact (txSend_keeps q c s).trans (ih _ _)

theorem txSendcmd_keeps (s : State) : Keeps s (txSendcmd s).st := by
  unfold txSendcmd
  cases h : encAuto s.params s.cmd with
  | error code => exact emitterOff_keeps s
  | ok q => exact (Keeps.setSeq s (yieldsSeq_encAuto _ _ q h)).trans (sendLoop_keeps ..)

/-! ## Receive (44_receive.md R220 to R232) -/

theorem rxInit_keeps (c : RxConfig) (s : State) : Keeps s (rxInit c s).st := by
  have drawn : Keeps s (drawAlloc s).2 := Keeps.setEnv s _
  rcases rxInit_cases c s with ⟨_, h⟩ | ⟨_, _, h⟩ | ⟨_, _, h⟩ <;> rw [h]
  · exact Keeps.refl s
  · exact drawn.trans (Keeps.setRx _ _)
  · exact drawn.trans (enterFault_keeps _)

theorem rxPoll_keeps (s : State) : Keeps s (rxPoll s).st := by
  rcases rxPoll_cases s with ⟨_, h⟩ | ⟨_, b, _, h⟩ | ⟨_, _, h⟩ <;> rw [h]
  · exact Keeps.refl s
  · exact Keeps.setRx s _
  · exact Keeps.refl s

theorem rxRearm_keeps (s : State) : Keeps s (rxRearm s).st := by
  rcases rxRearm_cases s with ⟨c, _, h, _⟩ | ⟨_, _, _, h⟩ <;> rw [h]
  · exact Keeps.refl s
  · exact Keeps.setRx s _

theorem rxDrain_keeps (s : State) : Keeps s (rxDrain s).st := by
  unfold rxDrain
  split
  · exact Keeps.refl s
  · exact Keeps.setRx s _

theorem rxRestart_keeps (s : State) : Keeps s (rxRestart s).st := by
  unfold rxRestart
  split
  · exact Keeps.refl s
  · exact Keeps.setRx s _

theorem rxDeinit_keeps (s : State) : Keeps s (rxDeinit s).st := by
  rcases rxDeinit_cases s with ⟨_, h⟩ | ⟨_, h⟩ <;> rw [h]
  · exact Keeps.refl s
  · exact Keeps.setRx s _

theorem rxComplete_keeps (b : RawBatch) (s : State) : Keeps s (rxComplete b s) := by
  rcases rxComplete_cases b s with ⟨_, _, _, h⟩ | h <;> rw [h]
  · exact Keeps.setRx s _
  · exact Keeps.refl s

theorem rxWave_keeps (w : List Interval) (s : State) : Keeps s (rxWave w s) := by
  rcases rxWave_cases w s with ⟨c, b, _, _, h⟩ | h <;> rw [h]
  · exact rxComplete_keeps b s
  · exact Keeps.refl s

/-! ## Decoding -/

/-- DEC.MATCH answers a value and writes nothing (45_normalizer_decode.md R253). -/
theorem decMatch_st (s : State) : (decMatch s).st = s := by
  unfold decMatch
  split
  · rfl
  · split <;> rfl

theorem decMatch_keeps (s : State) : Keeps s (decMatch s).st := by
  rw [decMatch_st]
  exact Keeps.refl s

/-! ## The session (46_session.md R270 to R275) -/

theorem sesRearm_keeps (s : State) : Keeps s (sesRearm s) := rxRearm_keeps s

theorem sesRearm_ses (s : State) : (sesRearm s).ses = s.ses := by
  rw [sesRearm_frame]

/-- An empty session, none or just begun, is in shape: its last text renders the empty sequence. -/
theorem sesSafe_of_empty {s : State} {z : SesState} (hz : z ≠ .held)
    (h : s.ses = { state := z, count := 0, last := [], pending := [] }) : SesSafe s := by
  rw [SesSafe, h]
  exact ⟨fun _ => ⟨rfl, rfl, rfl⟩, by simp, ⟨[], rfl, rfl⟩, fun hheld => absurd hheld hz⟩

theorem sesEnter_keeps (c : RxConfig) (s : State) : Keeps s (sesEnter c s).st := by
  unfold sesEnter
  split
  · exact Keeps.refl s
  · dsimp only
    split
    · exact rxInit_keeps c s
    · exact (rxInit_keeps c s).trans (Keeps.setSes _ fun _ => sesSafe_of_empty (z := .idle) nofun rfl)

/-- SES.CAPTURE: refused, nothing to take, an empty capture dropped, or a sequence held (R271). -/
theorem sesCapture_cases (s : State) :
    (s.ses.state ≠ .idle ∧ sesCapture s = raise .eBadState s) ∨
    (s.ses.state = .idle ∧ (s.rx.state = .uninit ∨ ∀ b, s.rx.queue ≠ .full b) ∧ sesCapture s = done s) ∨
    (s.ses.state = .idle ∧ s.rx.state ≠ .uninit ∧ ∃ b, s.rx.queue = .full b ∧
      ((normalizeBatch b = [] ∧ sesCapture s = {
          code := truncCode b
          st := sesRearm { s with rx := { s.rx with queue := .empty }, seq := [] } }) ∨
       (normalizeBatch b ≠ [] ∧ sesCapture s = {
          code := truncCode b
          st := { s with
            rx := { s.rx with queue := .empty }
            seq := normalizeBatch b
            ses := { s.ses with last := render (normalizeBatch b), state := .held } } }))) := by
  unfold sesCapture
  by_cases hst : s.ses.state = .idle
  · rcases rxPoll_cases s with ⟨hrx, h⟩ | ⟨hrx, b, hb, h⟩ | ⟨_, hb, h⟩
    · exact .inr (.inl ⟨hst, .inl hrx, by simp [hst, h]⟩)
    · refine .inr (.inr ⟨hst, hrx, b, hb, ?_⟩)
      cases hq : normalizeBatch b with
      | nil => exact .inl ⟨rfl, by simp [hst, h, hq]⟩
      | cons d rest => exact .inr ⟨by simp, by simp [hst, h, hq]⟩
    · exact .inr (.inl ⟨hst, .inr hb, by simp [hst, h]⟩)
  · exact .inl ⟨hst, by simp [hst]⟩

/-- A held session's last text renders the captured sequence, which has a mark. -/
theorem sesSafe_hold {s : State} (h : SesSafe s) {q : TimingSeq} (hq : TimingSeq.wf q = true) (hne : q ≠ []) :
    SesSafe { s with ses := { s.ses with last := render q, state := .held } } := by
  obtain ⟨_, hpending, _, _⟩ := h
  exact ⟨nofun, hpending, ⟨q, hq, rfl⟩, fun _ => render_ne_nil hne⟩

theorem sesCapture_keeps (s : State) : Keeps s (sesCapture s).st := by
  rcases sesCapture_cases s with ⟨_, h⟩ | ⟨_, _, h⟩ | ⟨_, _, b, _, ⟨_, h⟩ | ⟨hne, h⟩⟩ <;> rw [h]
  · exact Keeps.refl s
  · exact Keeps.refl s
  · exact ((Keeps.setRx s _).trans (Keeps.setSeq _ rfl)).trans (sesRearm_keeps _)
  · exact ((Keeps.setRx s _).trans (Keeps.setSeq _ (coalesce_wf _))).trans
      (Keeps.setSes _ fun hs => sesSafe_hold hs (coalesce_wf _) hne)

/-- A commit adds a block to the pending text, which is then not empty, and counts it. -/
theorem sesCommit_keeps (name : Text) (s : State) : Keeps s (sesCommit name s).st := by
  unfold sesCommit
  split
  · exact Keeps.refl s
  · split
    · exact Keeps.refl s
    · refine (sesRearm_keeps s).trans (Keeps.setSes _ fun hs => ?_)
      obtain ⟨_, _, hlast, _⟩ := hs
      rw [sesRearm_ses] at hlast
      exact ⟨nofun, by simp [commitBlock_ne_nil], hlast, nofun⟩

theorem sesDiscard_keeps (s : State) : Keeps s (sesDiscard s).st := by
  unfold sesDiscard
  split
  · exact Keeps.refl s
  · refine (sesRearm_keeps s).trans (Keeps.setSes _ fun hs => ?_)
    obtain ⟨_, hpending, hlast, _⟩ := hs
    exact ⟨nofun, hpending, hlast, nofun⟩

theorem sesFlush_keeps (path devname : Text) (s : State) : Keeps s (sesFlush path devname s).st := by
  unfold sesFlush
  split
  · exact Keeps.refl s
  · next hidle =>
    have hstate : s.ses.state = .idle := by tauto
    have stored (text : Text) : Keeps s (store path text s).2 := store_keeps path text s
    split
    · exact Keeps.refl s
    · dsimp only
      split
      · refine (stored _).trans (Keeps.setSes _ fun hs => ?_)
        obtain ⟨_, _, hlast, _⟩ := hs
        exact ⟨by simp [store_eq, hstate], by simp, hlast, by simp [store_eq, hstate]⟩
      · exact stored _

theorem sesExit_keeps (s : State) : Keeps s (sesExit s).st := by
  unfold sesExit
  split
  · exact Keeps.refl s
  · have emptied : Keeps s { s with cat := [] } :=
      { Keeps.refl s with lists := fun ⟨_, hrecents⟩ => ⟨Nat.zero_le _, hrecents⟩ }
    exact (emptied.trans (rxDeinit_keeps _)).trans
      (Keeps.setSes _ fun _ => sesSafe_of_empty (z := .none) nofun rfl)

/-! ## Replay (46_session.md R276 to R279) -/

theorem readLines_keeps (path : Text) (s : State) : Keeps s (readLines path s).2 := Keeps.setEnv s _

theorem rplLoad_keeps (path : Text) (s : State) : Keeps s (rplLoad path s).st := by
  unfold rplLoad
  dsimp only
  split
  · exact readLines_keeps path s
  · refine (readLines_keeps path s).trans { Keeps.refl _ with lists := ?_ }
    exact fun ⟨_, hrecents⟩ => ⟨List.length_take_le _ _, hrecents⟩

theorem rplSelect_keeps (i : Nat) (s : State) : Keeps s (rplSelect i s).st := by
  unfold rplSelect
  split
  · exact Keeps.refl s
  · next c _ =>
    have sent : Keeps s (txSendcmd { s with cmd := c }).st := (Keeps.setCmd s c).trans (txSendcmd_keeps _)
    dsimp only
    split
    · exact sent
    · exact sent.trans (Keeps.insertRecent _ c)

/-- A boundary that ends leaves `PAUSED` false (R279). -/
theorem boundary_keeps {samples : List InputFlags} {s t : State}
    (h : boundary samples s = .go t ∨ boundary samples s = .cancelled t) : Keeps s t := by
  rw [boundary_frame samples s t h]
  exact { Keeps.unpause s with }

theorem spamLoop_keeps (recs : List Command) (s : State) (e : Ended) (h : spamLoop recs s = some e) : Keeps s e.st := by
  induction recs generalizing s with
  | nil =>
    cases h
    exact Keeps.unpause s
  | cons c rest ih =>
    have drawn : Keeps s (drawBoundary s).2 := Keeps.setEnv s _
    unfold spamLoop at h
    dsimp only at h
    split at h
    · cases h
    · next s1 hb =>
      cases h
      exact drawn.trans (boundary_keeps (.inr hb))
    · next s1 hb =>
      have sent : Keeps s (txSendcmd { s1 with cmd := c }).st :=
        ((drawn.trans (boundary_keeps (.inl hb))).trans (Keeps.setCmd s1 c)).trans (txSendcmd_keeps _)
      split at h
      · cases h
        exact sent
      · exact (sent.trans (Keeps.setRecIdx _ _)).trans (ih _ h)

theorem rplSpamall_keeps {path : Text} {s : State} {e : Ended} (h : rplSpamall path s = some e) : Keeps s e.st := by
  have read : Keeps s (readLines path s).2 := readLines_keeps path s
  unfold rplSpamall at h
  dsimp only at h
  split at h
  · cases h
    exact read
  · exact ((read.trans (Keeps.setRecIdx _ 0)).trans (Keeps.unpause _)).trans (spamLoop_keeps _ _ e h)

/-! ## Operations -/

/-- An operation keeps what its body keeps: refused by a faulted block, it writes `RESULT` only (R309). -/
theorem operate_keeps {body : State → Ended} {s : State} (h : Keeps s (body s).st) : Keeps s (operate body s) := by
  rcases operate_cases body s with ⟨_, heq⟩ | ⟨_, heq⟩ <;> rw [heq]
  · exact (Keeps.refl s).finish
  · exact h.finish

/-- What `Keeps` says of the next state, if the step answers one. -/
def AnswerKeeps (s : State) (a : Answer) : Prop := ∀ t, a = .next t → Keeps s t

theorem issue_keeps {body : State → Ended} {s : State} (h : Keeps s (body s).st) : AnswerKeeps s (issue body s) := by
  rintro _ ⟨⟩
  exact operate_keeps h

theorem execRplSpamall_keeps (s : State) : AnswerKeeps s (execRplSpamall s) := by
  intro t ht
  unfold execRplSpamall at ht
  split at ht
  · cases ht
    exact (Keeps.refl s).finish
  · split at ht
    · next e he =>
      cases ht
      exact (rplSpamall_keeps he).finish
    · cases ht

theorem exec_keeps (i : Instr) (s : State) : AnswerKeeps s (exec i s) :=
  match i with
  | .primAppendrun | .seqTotext => issue_keeps (Keeps.refl s)
  | .primCoalesce | .famPd | .famPw | .famBiphase | .norm => issue_keeps (Keeps.setSeq s (coalesce_wf _))
  | .encNec | .encNecext | .encRc5 | .encRc6 | .encSamsung32 | .encSirc | .encSirc15 | .encSirc20 | .encKaseikyo =>
    issue_keeps (writeSeq_keeps yieldsSeq_encodeWith s)
  | .encRaw | .seqFromtext => issue_keeps (writeSeq_keeps (yieldsSeq_fromText _) s)
  | .encAuto => issue_keeps (writeSeq_keeps (yieldsSeq_encAuto _ _) s)
  | .txEnsure => issue_keeps (txEnsure_keeps _ s)
  | .txSend => issue_keeps (txSend_keeps _ _ s)
  | .txSendcmd => issue_keeps (txSendcmd_keeps s)
  | .rxInit => issue_keeps (rxInit_keeps _ s)
  | .rxPoll => issue_keeps (rxPoll_keeps s)
  | .rxRearm => issue_keeps (rxRearm_keeps s)
  | .rxDrain => issue_keeps (rxDrain_keeps s)
  | .rxRestart => issue_keeps (rxRestart_keeps s)
  | .rxDeinit => issue_keeps (rxDeinit_keeps s)
  | .decMatch => issue_keeps (decMatch_keeps s)
  | .sesEnter => issue_keeps (sesEnter_keeps _ s)
  | .sesCapture => issue_keeps (sesCapture_keeps s)
  | .sesCommit => issue_keeps (sesCommit_keeps _ s)
  | .sesDiscard => issue_keeps (sesDiscard_keeps s)
  | .sesFlush => issue_keeps (sesFlush_keeps _ _ s)
  | .sesExit => issue_keeps (sesExit_keeps s)
  | .rplLoad => issue_keeps (rplLoad_keeps _ s)
  | .rplSelect => issue_keeps (rplSelect_keeps _ s)
  | .rplSpamall => execRplSpamall_keeps s
  | .recInsert => issue_keeps (Keeps.insertRecent s _)

/-! ## Events and the step -/

/-- The host's write of `SEQ` is checked (log 31). -/
theorem writeHostSeq_keeps (q : List Nat) (s : State) : Keeps s (writeHostSeq q s) := by
  cases h : TimingSeq.wf q with
  | true => exact (writeHostSeq_of_wf h s).symm ▸ Keeps.setSeq s h
  | false => exact (writeHostSeq_of_not_wf h s).symm ▸ Keeps.refl s

theorem perform_keeps (e : Event) (s : State) : Keeps s (perform e s) :=
  match e with
  | .hostOp _ | .hostArgs _ | .hostRepeat _ | .hostMaxWait _ | .hostPoll _ | .hostChoice _ | .hostText _ _ _
  | .input _ | .hostCommand _ => { Keeps.refl s with }
  | .hostSeq q => writeHostSeq_keeps q s
  | .hostShow _ => { Keeps.refl s with shown := List.prefix_append .. }
  | .configurePin pin mode =>
    { Keeps.refl s with tables := fun ⟨hst, hpin⟩ => ⟨hst, setPinMode_wf pin mode s.pinModes hpin⟩ }
  | .txPlay => iteInduction (fun _ => txPlayNext_keeps s) (fun _ => Keeps.refl s)
  | .txComplete => iteInduction (fun _ => txComplete_keeps s) (fun _ => Keeps.refl s)
  | .rxBatch b => rxComplete_keeps b s
  | .rxWave w => rxWave_keeps w s
  | .file path content => Keeps.setStorage s path content

theorem agentStep_keeps (s : State) : Keeps s (agentStep s) := by
  unfold agentStep
  split
  · exact Keeps.refl s
  · exact (Keeps.setAgenda s _).trans (perform_keeps _ _)

theorem runSelector_keeps (op : OpByte) (s : State) : AnswerKeeps s (runSelector op s) := by
  unfold runSelector
  split
  · exact exec_keeps _ s
  · exact issue_keeps (Keeps.refl s)

theorem step_of_port_some {s : State} {op : OpByte} (hport : s.port = some op) :
    step s = runSelector op { s with port := none } := by
  simp [step, takeSelector, hport]

/-- Every step that answers a next state keeps what `Keeps` names. -/
theorem step_keeps {s t : State} (h : step s = .next t) : Keeps s t := by
  cases hport : s.port with
  | none =>
    rw [step_of_port_none hport] at h
    cases h
    exact agentStep_keeps s
  | some op =>
    rw [step_of_port_some hport] at h
    exact (Keeps.setPort s none).trans (runSelector_keeps op _ t h)

/-! ## The statements -/

/-- Settles O9: every write of `SEQ` is COALESCE's or a checked one, and the session operations keep their data in
shape (`step_keeps`). -/
theorem stepKeepsSequenceAndSession : Obligations.StepKeepsSequenceAndSession :=
  fun _ _ h => ⟨(step_keeps h).seq, (step_keeps h).ses⟩

/-- Settles O11: the writers of the lists cut them to their bound, and those of the tables keep their order
(`step_keeps`). -/
theorem stepKeepsLists : Obligations.StepKeepsLists :=
  fun _ _ h => ⟨(step_keeps h).lists, (step_keeps h).tables, (step_keeps h).paused⟩

/-- Settles O12: every write of the trace and of the two records appends, and the parameters have no writer
(`step_keeps`). -/
theorem traceGrowsAndTableStays : Obligations.TraceGrowsAndTableStays :=
  fun _ _ h => ⟨(step_keeps h).trace, (step_keeps h).handed, (step_keeps h).shown, (step_keeps h).params⟩

end Sys2Proof.Machine
end

section
/-! PROOFS. The channels: every step keeps the transmit and the receive side in shape (O10). -/

namespace Sys2Proof.Machine

/-! ## The transmit side in shape (43_transmit.md R200 to R204) -/

theorem txSafe_congr {s t : State} (h : t.tx = s.tx) : TxSafe s → TxSafe t := by
  rw [TxSafe, TxSafe, h]
  exact id

/-- With a frame in flight: the channel is allocated and the engine's place is inside the frame. -/
theorem txSafe_iff_of_busy {s : State} (h : s.tx.busy = true) :
    TxSafe s ↔ s.tx.alloc = true ∧ s.tx.played ≤ (pairsOf s.tx.buf).length := by
  simp only [TxSafe, h]
  tauto

/-- With none in flight: a configured channel is allocated, the carrier is off and the engine at its start. -/
theorem txSafe_iff_of_idle {s : State} (h : s.tx.busy = false) :
    TxSafe s ↔ (s.tx.cfg ≠ none → s.tx.alloc = true) ∧ s.tx.level ≠ .carrierOn ∧ s.tx.played = 0 := by
  constructor
  · rintro ⟨_, hcfg, hlevel, hplayed, _⟩
    exact ⟨hcfg, fun hon => by simp [hlevel hon] at h, hplayed h⟩
  · rintro ⟨hcfg, hlevel, hplayed⟩
    exact ⟨by simp [h], hcfg, fun hon => absurd hon hlevel, fun _ => hplayed, by omega⟩

theorem txComplete_txSafe {s : State} (h : TxSafe s) : TxSafe (txComplete s) := by
  obtain ⟨_, hcfg, _⟩ := h
  rw [txSafe_iff_of_idle (txComplete_tx_busy s)]
  simpa using hcfg

/-- The engine plays some of the pairs left, so its place stays inside the frame (R203; log 19). -/
theorem playPairs_txSafe {s : State} (h : TxSafe s) (hbusy : s.tx.busy = true) (n : Nat) :
    TxSafe { s with tx := playPairs s.tx ((unplayed s.tx).take n) } := by
  obtain ⟨halloc, hplace⟩ := (txSafe_iff_of_busy hbusy).1 h
  refine (txSafe_iff_of_busy (by simpa using hbusy)).2 ⟨by simpa using halloc, ?_⟩
  simp only [playPairs_eq, unplayed, List.length_take, List.length_drop]
  omega

theorem driveLow_txSafe {s : State} (h : TxSafe s) : TxSafe (driveLow s) := by
  obtain ⟨hbusy, hcfg, _, hplayed, hplace⟩ := h
  exact ⟨hbusy, hcfg, nofun, hplayed, hplace⟩

theorem txDrain_txSafe {s : State} (h : TxSafe s) : TxSafe (txDrain s) :=
  iteInduction (fun _ => txComplete_txSafe h) (fun _ => h)

theorem emitterOff_txSafe {s : State} (h : TxSafe s) : TxSafe (emitterOff s) := by
  refine driveLow_txSafe ?_
  rcases txMayComplete_cases s with ⟨_, heq⟩ | ⟨_, _, heq⟩ | ⟨_, _, heq⟩ <;> rw [heq]
  · exact h
  · exact txComplete_txSafe (s := (drawEngine s).2) h
  · exact h

/-- An allocated channel may be configured (R200). -/
theorem txConfigure_txSafe {s : State} (h : TxSafe s) (halloc : s.tx.alloc = true) (c : TxConfig) :
    TxSafe (txConfigure c s) := by
  obtain ⟨hbusy, _, hlevel, hplayed, hplace⟩ := h
  rcases txConfigure_cases c s with ⟨_, heq⟩ | ⟨_, heq⟩ <;> rw [heq]
  · exact ⟨hbusy, fun _ => halloc, hlevel, hplayed, hplace⟩
  · exact ⟨hbusy, fun _ => halloc, hlevel, hplayed, hplace⟩

theorem txEnsure_txSafe {s : State} (h : TxSafe s) (c : TxConfig) : TxSafe (txEnsure c s).st := by
  rcases txEnsure_cases c s with ⟨halloc, heq⟩ | ⟨_, _, heq⟩ | ⟨_, _, heq⟩ <;> rw [heq]
  · exact txConfigure_txSafe h halloc c
  · obtain ⟨_, _, hlevel, hplayed, hplace⟩ := h
    refine txConfigure_txSafe (s := { (drawAlloc s).2 with tx := { s.tx with alloc := true } }) ?_ rfl c
    exact ⟨fun _ => rfl, fun _ => rfl, hlevel, hplayed, hplace⟩
  · exact h

@[simp] theorem txConfigure_tx_alloc (c : TxConfig) (s : State) : (txConfigure c s).tx.alloc = s.tx.alloc := by
  rcases txConfigure_cases c s with ⟨_, heq⟩ | ⟨_, heq⟩ <;> rw [heq]

/-- TX.ENSURE leaves the channel allocated unless it faults (R200). -/
theorem txEnsure_alloc {c : TxConfig} {s : State} (h : (txEnsure c s).faulted = false) :
    (txEnsure c s).st.tx.alloc = true := by
  rcases txEnsure_cases c s with ⟨halloc, heq⟩ | ⟨_, _, heq⟩ | ⟨_, _, heq⟩ <;> rw [heq] at h ⊢
  · simpa using halloc
  · simp
  · cases h

/-- A request on an allocated channel: the frame completes, or is in flight with the engine inside it (R201, R207). -/
theorem txRequest_txSafe {s : State} (halloc : s.tx.alloc = true) (syms : List Symbol) :
    TxSafe (txRequest syms s).st := by
  obtain ⟨s1, hs1, hcases⟩ := txRequest_cases syms s
  have busy : s1.tx.busy = true := by rw [hs1]
  have requested : TxSafe s1 := (txSafe_iff_of_busy busy).2 (by simpa [hs1] using halloc)
  rcases hcases with ⟨_, heq⟩ | ⟨_, _, heq⟩ | ⟨_, _, n, rfl, heq⟩ <;> rw [heq]
  · exact txComplete_txSafe requested
  · exact txComplete_txSafe (s := (drawWait s1).2) requested
  · exact playPairs_txSafe (s := (drawPlays (drawWait s1).2).2) requested busy _

theorem txSend_txSafe {s : State} (h : TxSafe s) (q : List Nat) (c : TxConfig) : TxSafe (txSend q c s).st := by
  rcases txSend_cases q c s with ⟨_, heq⟩ | ⟨_, _, heq⟩ | ⟨_, hfault, heq⟩ <;> rw [heq]
  · exact h
  · exact txEnsure_txSafe (txDrain_txSafe h) c
  · exact txRequest_txSafe (txEnsure_alloc hfault) _

theorem sendLoop_txSafe {s : State} (h : TxSafe s) (q : List Nat) (c : TxConfig) (n : Nat)
    (first : Option ResultCode) : TxSafe (sendLoop q c n first s).st := by
  induction n generalizing first s with
  | zero => cases first <;> exact emitterOff_txSafe h
  | succ n ih =>
    unfold sendLoop
    dsimp only
    split
    · exact txSend_txSafe h q c
    · exact ih (txSend_txSafe h q c) _

theorem txSendcmd_txSafe {s : State} (h : TxSafe s) : TxSafe (txSendcmd s).st := by
  unfold txSendcmd
  cases encAuto s.params s.cmd with
  | error code => exact emitterOff_txSafe h
  | ok q => exact sendLoop_txSafe (s := { s with seq := q }) h ..

/-! ## The receive side in shape (44_receive.md R220 to R232) -/

theorem rxSafe_congr {s t : State} (h : t.rx = s.rx) : RxSafe s → RxSafe t := by
  rw [RxSafe, RxSafe, h]
  exact id

/-- Without a channel there is nothing but the buffer. -/
theorem rxSafe_iff_of_uninit {s : State} (h : s.rx.state = .uninit) :
    RxSafe s ↔ s.rx.queue = .absent ∧ s.rx.callback = false ∧ s.rx.cfg = none ∧
      s.rx.buf.length ≤ Config.rxSymbols := by
  simp only [RxSafe, h, true_iff]
  constructor
  · rintro ⟨hqueue, hcallback, hcfg, _, _, hbuf⟩
    exact ⟨hqueue, hcallback, hcfg, hbuf⟩
  · rintro ⟨hqueue, hcallback, hcfg, hbuf⟩
    exact ⟨hqueue, hcallback, hcfg, fun _ => nofun, by simp [hqueue], hbuf⟩

/-- With a channel: its queue is empty, or holds an admitted batch while the channel is not armed (20_memory.md R71). -/
theorem rxSafe_iff_of_init {s : State} (h : s.rx.state ≠ .uninit) :
    RxSafe s ↔ (s.rx.queue = .empty ∨ ∃ b, s.rx.queue = .full b ∧ b.wf = true ∧ s.rx.state ≠ .armed) ∧
      s.rx.callback = true ∧ s.rx.cfg ≠ none ∧ s.rx.buf.length ≤ Config.rxSymbols := by
  simp only [RxSafe, h, false_iff, Bool.not_eq_false, qFull]
  cases s.rx.queue with
  | absent => simp
  | empty => simp
  | full b =>
    simp only [Queue.full.injEq, reduceCtorEq, forall_eq', exists_eq_left', false_or,
      not_false_eq_true, true_and, forall_const]
    tauto

/-- Emptying the queue of a channel keeps it in shape, whatever becomes of the request (R227, R229, R230). -/
theorem rxSafe_emptied {s : State} (h : RxSafe s) (hinit : s.rx.state ≠ .uninit) {state : RxState}
    (hstate : state ≠ .uninit) : RxSafe { s with rx := { s.rx with queue := .empty, state := state } } := by
  obtain ⟨_, hrest⟩ := (rxSafe_iff_of_init hinit).1 h
  exact (rxSafe_iff_of_init hstate).2 ⟨.inl rfl, hrest⟩

/-- A queue that exists is empty after a drain. -/
theorem emptyQueue_of_rxSafe {s : State} (h : RxSafe s) (hinit : s.rx.state ≠ .uninit) :
    emptyQueue s.rx.queue = .empty := by
  obtain ⟨hempty | ⟨b, hfull, _, _⟩, _⟩ := (rxSafe_iff_of_init hinit).1 h
  · rw [hempty, emptyQueue]
  · rw [hfull, emptyQueue]

theorem rxInit_rxSafe {s : State} (h : RxSafe s) (c : RxConfig) : RxSafe (rxInit c s).st := by
  rcases rxInit_cases c s with ⟨_, heq⟩ | ⟨huninit, _, heq⟩ | ⟨_, _, heq⟩ <;> rw [heq]
  · exact h
  · obtain ⟨_, _, _, hbuf⟩ := (rxSafe_iff_of_uninit huninit).1 h
    exact (rxSafe_iff_of_init (by simp)).2 ⟨.inl rfl, rfl, nofun, hbuf⟩
  · exact h

theorem rxPoll_rxSafe {s : State} (h : RxSafe s) : RxSafe (rxPoll s).st := by
  rcases rxPoll_cases s with ⟨_, heq⟩ | ⟨hinit, _, _, heq⟩ | ⟨_, _, heq⟩ <;> rw [heq]
  · exact h
  · exact rxSafe_emptied h hinit hinit
  · exact h

/-- A rearm is granted with an empty queue only (R228). -/
theorem rxRearm_rxSafe {s : State} (h : RxSafe s) : RxSafe (rxRearm s).st := by
  rcases rxRearm_cases s with ⟨_, _, heq, _⟩ | ⟨hinit, hfree, _, heq⟩ <;> rw [heq]
  · exact h
  · obtain ⟨hempty | ⟨b, hfull, _⟩, hrest⟩ := (rxSafe_iff_of_init hinit).1 h
    · exact (rxSafe_iff_of_init (by simp)).2 ⟨.inl hempty, hrest⟩
    · simp [qFull, hfull] at hfree

theorem rxDrain_rxSafe {s : State} (h : RxSafe s) : RxSafe (rxDrain s).st := by
  unfold rxDrain
  split
  · exact h
  · next hinit =>
    rw [emptyQueue_of_rxSafe h hinit]
    exact rxSafe_emptied h hinit hinit

theorem rxRestart_rxSafe {s : State} (h : RxSafe s) : RxSafe (rxRestart s).st := by
  unfold rxRestart
  split
  · exact h
  · next hinit =>
    rw [emptyQueue_of_rxSafe h hinit]
    exact rxSafe_emptied h hinit nofun

theorem rxDeinit_rxSafe {s : State} (h : RxSafe s) : RxSafe (rxDeinit s).st := by
  obtain ⟨_, _, _, _, _, hbuf⟩ := id h
  rcases rxDeinit_cases s with ⟨_, heq⟩ | ⟨_, heq⟩ <;> rw [heq]
  · exact h
  · exact (rxSafe_iff_of_uninit rfl).2 ⟨rfl, rfl, rfl, hbuf⟩

/-- A write from index 0 makes the buffer no longer than what it holds or what is written (20_memory.md R60). -/
theorem writeFront_length_le {v buf : List Symbol} {n : Nat} (hv : v.length ≤ n) (hbuf : buf.length ≤ n) :
    (writeFront v buf).length ≤ n := by
  simp only [writeFront, List.length_append, List.length_drop]
  omega

theorem rawBatchWf_length_le {b : RawBatch} (h : b.wf = true) : b.symbols.length ≤ Config.rxSymbols := by
  simp only [RawBatch.wf, Bool.and_eq_true, decide_eq_true_eq] at h
  exact h.1.2

/-- An armed channel has an empty queue, so a capture fills it, and the request is over (R226, R316). -/
theorem rxComplete_rxSafe {s : State} (h : RxSafe s) (b : RawBatch) : RxSafe (rxComplete b s) := by
  rcases rxComplete_cases b s with ⟨harmed, _, hwf, heq⟩ | heq <;> rw [heq]
  · obtain ⟨hempty | ⟨_, _, _, hnot⟩, hcallback, hcfg, hbuf⟩ := (rxSafe_iff_of_init (by simp [harmed])).1 h
    · have filled : rxCapture b s.rx =
          { s.rx with buf := writeFront b.symbols s.rx.buf, state := .idle, queue := .full b } := by
        simp [rxCapture, isrCallback, hcallback, hempty]
      rw [filled]
      exact (rxSafe_iff_of_init (by simp)).2 ⟨.inr ⟨b, rfl, hwf, nofun⟩, hcallback, hcfg,
        writeFront_length_le (rawBatchWf_length_le hwf) hbuf⟩
    · exact absurd harmed hnot
  · exact h

theorem rxComplete_tx (b : RawBatch) (s : State) : (rxComplete b s).tx = s.tx := by
  rcases rxComplete_cases b s with ⟨_, _, _, heq⟩ | heq <;> rw [heq]

theorem rxWave_tx (w : List Interval) (s : State) : (rxWave w s).tx = s.tx := by
  rcases rxWave_cases w s with ⟨_, b, _, _, heq⟩ | heq <;> rw [heq]
  exact rxComplete_tx b s

theorem rxWave_rxSafe {s : State} (h : RxSafe s) (w : List Interval) : RxSafe (rxWave w s) := by
  rcases rxWave_cases w s with ⟨_, b, _, _, heq⟩ | heq <;> rw [heq]
  · exact rxComplete_rxSafe h b
  · exact h

/-! ## The relation of a state and what comes after it -/

/-- Both channels stay in shape from the state `s` to the state `t`. -/
structure KeepsChannels (s t : State) : Prop where
  tx : TxSafe s → TxSafe t
  rx : RxSafe s → RxSafe t

namespace KeepsChannels

/-- What leaves the receive side keeps the channels if it keeps the transmit side. -/
theorem of_tx {s t : State} (h : TxSafe s → TxSafe t) (hrx : t.rx = s.rx) : KeepsChannels s t :=
  { tx := h, rx := rxSafe_congr hrx }

/-- What leaves the transmit side keeps the channels if it keeps the receive side. -/
theorem of_rx {s t : State} (h : RxSafe s → RxSafe t) (htx : t.tx = s.tx) : KeepsChannels s t :=
  { tx := txSafe_congr htx, rx := h }

theorem of_eq {s t : State} (htx : t.tx = s.tx) (hrx : t.rx = s.rx) : KeepsChannels s t :=
  of_tx (txSafe_congr htx) hrx

theorem refl (s : State) : KeepsChannels s s := of_eq rfl rfl

theorem trans {s t u : State} (h : KeepsChannels s t) (h' : KeepsChannels t u) : KeepsChannels s u :=
  { tx := h'.tx ∘ h.tx, rx := h'.rx ∘ h.rx }

/-- A write outside the two units before it does not matter. -/
theorem eq_trans {s t u : State} (h : KeepsChannels t u) (htx : t.tx = s.tx) (hrx : t.rx = s.rx) :
    KeepsChannels s u :=
  (of_eq htx hrx).trans h

/-- A write outside the two units after it does not matter. -/
theorem trans_eq {s t u : State} (h : KeepsChannels s t) (htx : u.tx = t.tx) (hrx : u.rx = t.rx) :
    KeepsChannels s u :=
  h.trans (of_eq htx hrx)

end KeepsChannels

/-! ## Operations of the units (20_memory.md R77) -/

theorem txEnsure_keepsChannels (c : TxConfig) (s : State) : KeepsChannels s (txEnsure c s).st :=
  .of_tx (txEnsure_txSafe · c) (by rw [txEnsure_frame])

theorem txSend_keepsChannels (q : List Nat) (c : TxConfig) (s : State) : KeepsChannels s (txSend q c s).st :=
  .of_tx (txSend_txSafe · q c) (by rw [txSend_frame])

theorem txSendcmd_keepsChannels (s : State) : KeepsChannels s (txSendcmd s).st :=
  .of_tx txSendcmd_txSafe (by rw [txSendcmd_frame])

theorem rxInit_keepsChannels (c : RxConfig) (s : State) : KeepsChannels s (rxInit c s).st :=
  .of_rx (rxInit_rxSafe · c) (by rcases rxInit_cases c s with ⟨_, h⟩ | ⟨_, _, h⟩ | ⟨_, _, h⟩ <;> simp [h])

theorem rxPoll_keepsChannels (s : State) : KeepsChannels s (rxPoll s).st :=
  .of_rx rxPoll_rxSafe (by rcases rxPoll_cases s with ⟨_, h⟩ | ⟨_, _, _, h⟩ | ⟨_, _, h⟩ <;> simp [h])

theorem rxRearm_keepsChannels (s : State) : KeepsChannels s (rxRearm s).st :=
  .of_rx rxRearm_rxSafe (by rcases rxRearm_cases s with ⟨_, _, h, _⟩ | ⟨_, _, _, h⟩ <;> simp [h])

theorem rxDrain_keepsChannels (s : State) : KeepsChannels s (rxDrain s).st :=
  .of_rx rxDrain_rxSafe (by unfold rxDrain; split <;> rfl)

theorem rxRestart_keepsChannels (s : State) : KeepsChannels s (rxRestart s).st :=
  .of_rx rxRestart_rxSafe (by unfold rxRestart; split <;> rfl)

theorem rxDeinit_keepsChannels (s : State) : KeepsChannels s (rxDeinit s).st :=
  .of_rx rxDeinit_rxSafe (by rcases rxDeinit_cases s with ⟨_, h⟩ | ⟨_, h⟩ <;> simp [h])

/-! ## Encoders, decoding and the session: no unit is written, or by an operation of it -/

theorem writeSeq_keepsChannels (r : Except ResultCode TimingSeq) (s : State) : KeepsChannels s (writeSeq r s).st := by
  rcases writeSeq_cases r s with ⟨_, _, h⟩ | ⟨_, _, h⟩ <;> rw [h]
  · exact .of_eq rfl rfl
  · exact .refl s

theorem decMatch_keepsChannels (s : State) : KeepsChannels s (decMatch s).st := by
  rw [decMatch_st]
  exact .refl s

theorem sesEnter_keepsChannels (c : RxConfig) (s : State) : KeepsChannels s (sesEnter c s).st := by
  unfold sesEnter
  split
  · exact .refl s
  · dsimp only
    split
    · exact rxInit_keepsChannels c s
    · exact (rxInit_keepsChannels c s).trans_eq rfl rfl

theorem sesRearm_keepsChannels (s : State) : KeepsChannels s (sesRearm s) := rxRearm_keepsChannels s

/-- SES.CAPTURE polls, and rearms after an empty capture (46_session.md R271). -/
theorem sesCapture_keepsChannels (s : State) : KeepsChannels s (sesCapture s).st := by
  rcases sesCapture_cases s with ⟨_, h⟩ | ⟨_, _, h⟩ | ⟨_, hinit, b, _, hcases⟩
  · rw [h]
    exact .refl s
  · rw [h]
    exact .refl s
  · have polled : KeepsChannels s { s with rx := { s.rx with queue := .empty } } :=
      .of_rx (rxSafe_emptied · hinit hinit) rfl
    rcases hcases with ⟨_, h⟩ | ⟨_, h⟩ <;> rw [h]
    · exact polled.trans ((sesRearm_keepsChannels _).eq_trans rfl rfl)
    · exact polled.trans_eq rfl rfl

theorem sesCommit_keepsChannels (name : Text) (s : State) : KeepsChannels s (sesCommit name s).st := by
  unfold sesCommit
  split
  · exact .refl s
  · split
    · exact .refl s
    · exact (sesRearm_keepsChannels s).trans_eq rfl rfl

theorem sesDiscard_keepsChannels (s : State) : KeepsChannels s (sesDiscard s).st := by
  unfold sesDiscard
  split
  · exact .refl s
  · exact (sesRearm_keepsChannels s).trans_eq rfl rfl

theorem sesFlush_keepsChannels (path devname : Text) (s : State) : KeepsChannels s (sesFlush path devname s).st := by
  unfold sesFlush
  split
  · exact .refl s
  · split
    · exact .refl s
    · dsimp only
      split <;> exact .of_eq rfl rfl

theorem sesExit_keepsChannels (s : State) : KeepsChannels s (sesExit s).st := by
  unfold sesExit
  split
  · exact .refl s
  · have freed : KeepsChannels s (rxDeinit { s with cat := [] }).st := (rxDeinit_keepsChannels _).eq_trans rfl rfl
    exact freed.trans_eq rfl rfl

/-! ## Replay (46_session.md R276 to R279) -/

theorem rplLoad_keepsChannels (path : Text) (s : State) : KeepsChannels s (rplLoad path s).st := by
  unfold rplLoad
  dsimp only
  split <;> exact .of_eq rfl rfl

theorem rplSelect_keepsChannels (i : Nat) (s : State) : KeepsChannels s (rplSelect i s).st := by
  unfold rplSelect
  split
  · exact .refl s
  · next c _ =>
    have sent : KeepsChannels s (txSendcmd { s with cmd := c }).st :=
      (txSendcmd_keepsChannels _).eq_trans rfl rfl
    dsimp only
    split
    · exact sent
    · exact sent.trans_eq rfl rfl

/-- What follows a record boundary starts with the channels as they were (R279). -/
theorem boundary_keepsChannels {samples : List InputFlags} {s t : State}
    (h : boundary samples s = .go t ∨ boundary samples s = .cancelled t) : KeepsChannels s t := by
  rw [boundary_frame samples s t h]
  exact .of_eq rfl rfl

theorem spamLoop_keepsChannels {recs : List Command} {s : State} {e : Ended} (h : spamLoop recs s = some e) :
    KeepsChannels s e.st := by
  induction recs generalizing s with
  | nil =>
    cases h
    exact .of_eq rfl rfl
  | cons c rest ih =>
    have drawn : KeepsChannels s (drawBoundary s).2 := .of_eq rfl rfl
    unfold spamLoop at h
    dsimp only at h
    split at h
    · cases h
    · next s1 hb =>
      cases h
      exact drawn.trans (boundary_keepsChannels (.inr hb))
    · next s1 hb =>
      have sent : KeepsChannels s (txSendcmd { s1 with cmd := c }).st :=
        (drawn.trans (boundary_keepsChannels (.inl hb))).trans ((txSendcmd_keepsChannels _).eq_trans rfl rfl)
      split at h
      · cases h
        exact sent
      · exact sent.trans ((ih h).eq_trans rfl rfl)

theorem rplSpamall_keepsChannels {path : Text} {s : State} {e : Ended} (h : rplSpamall path s = some e) :
    KeepsChannels s e.st := by
  have started : KeepsChannels s { (readLines path s).2 with recIdx := 0, paused := false } := .of_eq rfl rfl
  unfold rplSpamall at h
  dsimp only at h
  split at h
  · cases h
    exact .of_eq rfl rfl
  · exact started.trans (spamLoop_keepsChannels h)

/-! ## Every operation, every event, every step -/

/-- What `KeepsChannels` says of the next state, if there is one. -/
def AnswerKeepsChannels (s : State) (a : Answer) : Prop := ∀ t, a = .next t → KeepsChannels s t

/-- A faulted block writes `RESULT` only (60_exceptions.md R309), and so does the end of an operation (R315). -/
theorem issue_keepsChannels {body : State → Ended} {s : State} (h : KeepsChannels s (body s).st) :
    AnswerKeepsChannels s (issue body s) := by
  rintro _ ⟨⟩
  rcases operate_cases body s with ⟨_, heq⟩ | ⟨_, heq⟩ <;> rw [heq]
  · exact .of_eq rfl rfl
  · exact h.trans_eq rfl rfl

/-- An operation that writes neither unit. -/
theorem issue_keepsChannels_of_eq {body : State → Ended} {s : State} (htx : (body s).st.tx = s.tx)
    (hrx : (body s).st.rx = s.rx) : AnswerKeepsChannels s (issue body s) :=
  issue_keepsChannels (.of_eq htx hrx)

theorem execRplSpamall_keepsChannels (s : State) : AnswerKeepsChannels s (execRplSpamall s) := by
  intro t ht
  unfold execRplSpamall at ht
  split at ht
  · cases ht
    exact .of_eq rfl rfl
  · split at ht
    · next e he =>
      cases ht
      exact (rplSpamall_keepsChannels he).trans_eq rfl rfl
    · cases ht

theorem exec_keepsChannels (i : Instr) (s : State) : AnswerKeepsChannels s (exec i s) :=
  match i with
  | .primAppendrun | .primCoalesce | .famPd | .famPw | .famBiphase | .norm | .seqTotext | .recInsert =>
    issue_keepsChannels_of_eq rfl rfl
  | .encNec | .encNecext | .encRc5 | .encRc6 | .encSamsung32 | .encSirc | .encSirc15 | .encSirc20 | .encKaseikyo
  | .encRaw | .encAuto | .seqFromtext => issue_keepsChannels (writeSeq_keepsChannels _ s)
  | .txEnsure => issue_keepsChannels (txEnsure_keepsChannels _ s)
  | .txSend => issue_keepsChannels (txSend_keepsChannels _ _ s)
  | .txSendcmd => issue_keepsChannels (txSendcmd_keepsChannels s)
  | .rxInit => issue_keepsChannels (rxInit_keepsChannels _ s)
  | .rxPoll => issue_keepsChannels (rxPoll_keepsChannels s)
  | .rxRearm => issue_keepsChannels (rxRearm_keepsChannels s)
  | .rxDrain => issue_keepsChannels (rxDrain_keepsChannels s)
  | .rxRestart => issue_keepsChannels (rxRestart_keepsChannels s)
  | .rxDeinit => issue_keepsChannels (rxDeinit_keepsChannels s)
  | .decMatch => issue_keepsChannels (decMatch_keepsChannels s)
  | .sesEnter => issue_keepsChannels (sesEnter_keepsChannels _ s)
  | .sesCapture => issue_keepsChannels (sesCapture_keepsChannels s)
  | .sesCommit => issue_keepsChannels (sesCommit_keepsChannels _ s)
  | .sesDiscard => issue_keepsChannels (sesDiscard_keepsChannels s)
  | .sesFlush => issue_keepsChannels (sesFlush_keepsChannels _ _ s)
  | .sesExit => issue_keepsChannels (sesExit_keepsChannels s)
  | .rplLoad => issue_keepsChannels (rplLoad_keepsChannels _ s)
  | .rplSelect => issue_keepsChannels (rplSelect_keepsChannels _ s)
  | .rplSpamall => execRplSpamall_keepsChannels s

theorem runSelector_keepsChannels (op : OpByte) (s : State) : AnswerKeepsChannels s (runSelector op s) := by
  unfold runSelector
  split
  · exact exec_keepsChannels _ s
  · exact issue_keepsChannels (.refl s)

/-- The engine inside a frame: it plays at most one pair of those left (R203). -/
theorem txPlay_txSafe {s : State} (h : TxSafe s) : TxSafe (txPlay s) :=
  iteInduction (fun hbusy => playPairs_txSafe h hbusy.1 1) (fun _ => h)

theorem txEngine_txSafe {s : State} (h : TxSafe s) : TxSafe (txEngine s) :=
  iteInduction (fun _ => txComplete_txSafe h) (fun _ => h)

theorem perform_keepsChannels (e : Event) (s : State) : KeepsChannels s (perform e s) :=
  match e with
  | .hostOp _ | .hostCommand _ | .hostArgs _ | .hostRepeat _ | .hostMaxWait _ | .hostPoll _ | .hostShow _
  | .hostChoice _ | .hostText _ _ _ | .configurePin _ _ | .input _ | .file _ _ => .of_eq rfl rfl
  | .hostSeq q => by
    cases hwf : TimingSeq.wf q with
    | true =>
      rw [perform, writeHostSeq_of_wf hwf]
      exact .of_eq rfl rfl
    | false =>
      rw [perform, writeHostSeq_of_not_wf hwf]
      exact .refl s
  | .txPlay => .of_tx txPlay_txSafe (by simp only [perform, txPlay]; split <;> rfl)
  | .txComplete => .of_tx txEngine_txSafe (by simp only [perform, txEngine]; split <;> rfl)
  | .rxBatch b => .of_rx (rxComplete_rxSafe · b) (rxComplete_tx b s)
  | .rxWave w => .of_rx (rxWave_rxSafe · w) (rxWave_tx w s)

theorem agentStep_keepsChannels (s : State) : KeepsChannels s (agentStep s) := by
  unfold agentStep
  split
  · exact .refl s
  · exact (perform_keepsChannels _ _).eq_trans rfl rfl

theorem step_keepsChannels {s t : State} (h : step s = .next t) : KeepsChannels s t := by
  cases hport : s.port with
  | none =>
    rw [step_of_port_none hport] at h
    cases h
    exact agentStep_keepsChannels s
  | some op =>
    rw [step_of_port_some hport] at h
    exact (runSelector_keepsChannels op _ t h).eq_trans rfl rfl

/-- Settles O10: each writer of a unit keeps it in shape, and the others leave it (`step_keepsChannels`). -/
theorem stepKeepsChannels : Obligations.StepKeepsChannels :=
  fun _ _ h => ⟨(step_keepsChannels h).tx, (step_keepsChannels h).rx⟩

end Sys2Proof.Machine
end

section
/-! PROOFS. Transmit and receive are independent: an operation of one side neither reads nor writes the other (O13). -/

namespace Sys2Proof.Machine

/-! ## One side of the state replaced -/

/-- The state with its receive side replaced. -/
def State.withRx (r : RxUnit) (s : State) : State := { s with rx := r }

/-- The state with its transmit side replaced. -/
def State.withTx (u : TxUnit) (s : State) : State := { s with tx := u }

/-- How an operation ended, with its state rewritten: the code and the value are the same. -/
def Ended.map (f : State → State) (e : Ended) : Ended := { e with st := f e.st }

@[simp] theorem done_map (f : State → State) (s : State) : (done s).map f = done (f s) := rfl

@[simp] theorem raise_map (f : State → State) (c : ResultCode) (s : State) : (raise c s).map f = raise c (f s) := rfl

@[simp] theorem map_faulted (f : State → State) (e : Ended) : (e.map f).faulted = e.faulted := rfl

@[simp] theorem map_failed (f : State → State) (e : Ended) : (e.map f).failed = e.failed := rfl

/-- `f` rewrites a part of the state that the entry and the end of an operation leave alone (R309, R315). -/
structure OutsideEntry (f : State → State) : Prop where
  fault : ∀ s, (f s).fault = s.fault
  finish : ∀ e : Ended, finish (e.map f) = f (finish e)

theorem outsideEntry_withRx (r : RxUnit) : OutsideEntry (State.withRx r) := ⟨fun _ => rfl, fun _ => rfl⟩

theorem outsideEntry_withTx (u : TxUnit) : OutsideEntry (State.withTx u) := ⟨fun _ => rfl, fun _ => rfl⟩

/-- An operation commutes with a rewriting of the state if its body does. -/
theorem issue_commutes {f : State → State} (hf : OutsideEntry f) {body : State → Ended} {s t : State}
    (hbody : body (f s) = (body s).map f) (h : issue body s = .next t) : issue body (f s) = .next (f t) := by
  cases h
  rw [issue_eq]
  congr 1
  rcases operate_cases body s with ⟨hfault, heq⟩ | ⟨hfault, heq⟩ <;> rw [heq, ← hf.finish]
  · exact operate_of_fault body (by rw [hf.fault, hfault])
  · rw [operate_of_usable body (by rw [hf.fault, hfault]), hbody]

/-- A case split commutes with a function that commutes in both branches. -/
theorem ite_commutes {α β : Type} (f : α → β) {p : Prop} [Decidable p] {a b : α} {x y : β} (hx : x = f a)
    (hy : y = f b) : (if p then x else y) = f (if p then a else b) := by
  rw [hx, hy, apply_ite f]

/-! ## Transmit operations and the receive side (43_transmit.md R200 to R207) -/

section
variable (r : RxUnit)

theorem txConfigure_withRx (c : TxConfig) (s : State) : txConfigure c (s.withRx r) = (txConfigure c s).withRx r :=
  ite_commutes (State.withRx r) rfl rfl

theorem txDrain_withRx (s : State) : txDrain (s.withRx r) = (txDrain s).withRx r :=
  ite_commutes (State.withRx r) rfl rfl

theorem txMayComplete_withRx (s : State) : txMayComplete (s.withRx r) = (txMayComplete s).withRx r :=
  ite_commutes (State.withRx r) (ite_commutes (State.withRx r) rfl rfl) rfl

theorem emitterOff_withRx (s : State) : emitterOff (s.withRx r) = (emitterOff s).withRx r :=
  congrArg driveLow (txMayComplete_withRx r s)

theorem txEnsure_withRx (c : TxConfig) (s : State) :
    txEnsure c (s.withRx r) = (txEnsure c s).map (State.withRx r) :=
  have allocated := txConfigure_withRx r c { (drawAlloc s).2 with tx := { s.tx with alloc := true } }
  ite_commutes (Ended.map (State.withRx r)) (congrArg done (txConfigure_withRx r c s))
    (ite_commutes (Ended.map (State.withRx r)) (congrArg done allocated) rfl)

theorem txRequest_withRx (syms : List Symbol) (s : State) :
    txRequest syms (s.withRx r) = (txRequest syms s).map (State.withRx r) := by
  have hwait : (s.withRx r).maxWait = s.maxWait := rfl
  simp only [txRequest, hwait]
  cases s.maxWait with
  | none => rfl
  | some m => exact ite_commutes (Ended.map (State.withRx r)) rfl rfl

theorem txSend_withRx (q : List Nat) (c : TxConfig) (s : State) :
    txSend q c (s.withRx r) = (txSend q c s).map (State.withRx r) := by
  cases q with
  | nil => rfl
  | cons d rest =>
    simp only [txSend, txDrain_withRx, txEnsure_withRx, map_faulted]
    exact ite_commutes (Ended.map (State.withRx r)) rfl (txRequest_withRx r _ _)

theorem sendLoop_withRx (q : List Nat) (c : TxConfig) (n : Nat) (first : Option ResultCode) (s : State) :
    sendLoop q c n first (s.withRx r) = (sendLoop q c n first s).map (State.withRx r) := by
  induction n generalizing first s with
  | zero => cases first <;> simp [sendLoop, emitterOff_withRx]
  | succ n ih =>
    simp only [sendLoop, txSend_withRx, map_faulted, map_failed]
    exact ite_commutes (Ended.map (State.withRx r)) rfl (ih _ _)

theorem txSendcmd_withRx (s : State) : txSendcmd (s.withRx r) = (txSendcmd s).map (State.withRx r) := by
  unfold txSendcmd
  dsimp only [State.withRx]
  cases encAuto s.params s.cmd with
  | error code => exact congrArg (raise code) (emitterOff_withRx r s)
  | ok q => exact sendLoop_withRx r q _ _ none { s with seq := q }

end

/-! ## Receive operations and the transmit side (44_receive.md R220 to R231) -/

section
variable (u : TxUnit)

theorem rxInit_withTx (c : RxConfig) (s : State) : rxInit c (s.withTx u) = (rxInit c s).map (State.withTx u) :=
  ite_commutes (Ended.map (State.withTx u)) rfl (ite_commutes (Ended.map (State.withTx u)) rfl rfl)

theorem rxPoll_withTx (s : State) : rxPoll (s.withTx u) = (rxPoll s).map (State.withTx u) := by
  refine ite_commutes (Ended.map (State.withTx u)) rfl ?_
  have hqueue : (s.withTx u).rx.queue = s.rx.queue := rfl
  rw [hqueue]
  cases s.rx.queue <;> rfl

theorem rxRearm_withTx (s : State) : rxRearm (s.withTx u) = (rxRearm s).map (State.withTx u) :=
  ite_commutes (Ended.map (State.withTx u)) rfl <|
  ite_commutes (Ended.map (State.withTx u)) rfl <|
  ite_commutes (Ended.map (State.withTx u)) rfl rfl

theorem rxDrain_withTx (s : State) : rxDrain (s.withTx u) = (rxDrain s).map (State.withTx u) :=
  ite_commutes (Ended.map (State.withTx u)) rfl rfl

theorem rxRestart_withTx (s : State) : rxRestart (s.withTx u) = (rxRestart s).map (State.withTx u) :=
  ite_commutes (Ended.map (State.withTx u)) rfl rfl

theorem rxDeinit_withTx (s : State) : rxDeinit (s.withTx u) = (rxDeinit s).map (State.withTx u) :=
  ite_commutes (Ended.map (State.withTx u)) rfl rfl

end

/-- Settles O13: each operation of one side commutes with a replacement of the other. -/
theorem transmitAndReceiveIndependent : Obligations.TransmitAndReceiveIndependent := by
  constructor
  · intro s t i r hi
    have commutes {body : State → Ended} := issue_commutes (outsideEntry_withRx r) (body := body) (s := s) (t := t)
    simp only [List.mem_cons, List.not_mem_nil, or_false] at hi
    rcases hi with rfl | rfl | rfl
    · exact commutes (txEnsure_withRx r _ s)
    · exact commutes (txSend_withRx r _ _ s)
    · exact commutes (txSendcmd_withRx r s)
  · intro s t i u hi
    have commutes {body : State → Ended} := issue_commutes (outsideEntry_withTx u) (body := body) (s := s) (t := t)
    simp only [List.mem_cons, List.not_mem_nil, or_false] at hi
    rcases hi with rfl | rfl | rfl | rfl | rfl | rfl
    · exact commutes (rxInit_withTx u _ s)
    · exact commutes (rxPoll_withTx u s)
    · exact commutes (rxRearm_withTx u s)
    · exact commutes (rxDrain_withTx u s)
    · exact commutes (rxRestart_withTx u s)
    · exact commutes (rxDeinit_withTx u s)

end Sys2Proof.Machine
end

section
/-! PROOFS. Encoding: the operation word and the step that runs it (O1, O2, O3), the bit permutations (O30) and the
hexadecimal operand fields (O29). -/

namespace Sys2Proof

/-! ## The operation word (30_encoding.md R99, R100, R109) -/

@[simp] theorem decodeSelector_selector (i : Instr) : decodeSelector (selector i) = some i := by
  cases i <;> rfl

theorem selector_of_decodeSelector {op : OpByte} {i : Instr} (h : decodeSelector op = some i) : selector i = op := by
  unfold decodeSelector at h
  split at h <;> cases h <;> exact BitVec.eq_of_toNat_eq (Eq.symm ‹_›)

/-- The decoder reads one byte: it accepts exactly the word of an operation, and leaves what stands after it (R99). -/
theorem decode_cons_eq_ok {op : OpByte} {rest more : List OpByte} {i : Instr} :
    decode (op :: rest) = .ok (i, more) ↔ op = selector i ∧ rest = more := by
  unfold decode
  constructor
  · intro h
    cases hop : decodeSelector op with
    | none => simp [hop] at h
    | some i' =>
      obtain ⟨rfl, rfl⟩ : i' = i ∧ rest = more := by simpa [hop] using h
      exact ⟨(selector_of_decodeSelector hop).symm, rfl⟩
  · rintro ⟨rfl, rfl⟩
    simp

theorem decode_cons_of_reserved {op : OpByte} (h : decodeSelector op = none) (rest : List OpByte) :
    decode (op :: rest) = .error (.reservedSelector op) := by
  simp [decode, h]

/-- The selectors of the operation map, as numbers (R100). -/
theorem selector_toNat_mem (i : Instr) :
    (selector i).toNat ∈ [0x01, 0x02, 0x04, 0x05, 0x06,
      0x10, 0x11, 0x12, 0x13, 0x14, 0x15, 0x16, 0x17, 0x18, 0x19, 0x1F,
      0x20, 0x21, 0x22, 0x30, 0x31, 0x32, 0x33, 0x34, 0x35, 0x40, 0x41, 0x42, 0x43,
      0x50, 0x51, 0x52, 0x53, 0x54, 0x55, 0x60, 0x61, 0x62, 0x63] := by
  cases i <;> decide

end Sys2Proof

namespace Sys2Proof.Machine

/-- Settles O1: both directions are `decode_cons_eq_ok`; the written-out words evaluate. -/
theorem selectorCodecAgrees : Obligations.SelectorCodecAgrees := by
  refine ⟨fun i rest => ?wordDecodes, fun op rest more i h => ?decodedIsWord,
    rfl, rfl, rfl, rfl, rfl, rfl, rfl, rfl, rfl, rfl, rfl⟩
  case wordDecodes => exact decode_cons_eq_ok.mpr ⟨rfl, rfl⟩
  case decodedIsWord =>
    obtain ⟨rfl, rfl⟩ := decode_cons_eq_ok.mp h
    rfl

/-! ## A step with a selector waiting -/

theorem runSelector_of_decode {op : OpByte} {i : Instr} {rest : List OpByte} (h : decode [op] = .ok (i, rest))
    (s : State) : runSelector op s = exec i s := by
  simp [runSelector, h]

theorem runSelector_of_reserved {op : OpByte} (h : decodeSelector op = none) (s : State) :
    runSelector op s = reservedOp s := by
  simp [runSelector, decode_cons_of_reserved h]

/-- On a block without a fault a reserved operation ends with `E_NOT_SUPPORTED` and returns nothing (R109). -/
theorem reservedOp_of_not_fault {s : State} (h : s.fault = false) :
    reservedOp s = .next { s with result := .eNotSupported, value := .none } := by
  simp [reservedOp, issue, operate, h, finish, raise]

/-- Settles O2: a selector that decodes is one of the map (`selector_toNat_mem`), so one outside it is reserved. -/
theorem reservedSelectorNotSupported : Obligations.ReservedSelectorNotSupported := by
  intro s op hfault hport hop
  have hreserved : decodeSelector op = none := by
    refine Option.eq_none_iff_forall_ne_some.mpr fun i hi => hop ?_
    rw [← selector_of_decodeSelector hi]
    exact selector_toNat_mem i
  rw [step_of_port_some hport, runSelector_of_reserved hreserved]
  exact reservedOp_of_not_fault (s := { s with port := none }) hfault

/-- Settles O3: the step takes the selector (`step_of_port_some`) and runs what it decodes to; the word that
`withFetchWord` writes is the selector itself, which decodes to its operation (`decode_cons_eq_ok`). -/
theorem stepRunsDecoded : Obligations.StepRunsDecoded := by
  have runs (s : State) (op : OpByte) (i : Instr) (rest : List OpByte) (hport : s.port = some op)
      (hdecode : decode [op] = .ok (i, rest)) : step s = exec i { s with port := none } := by
    rw [step_of_port_some hport, runSelector_of_decode hdecode]
  refine ⟨runs, fun s i n => runs (s.withFetchWord n (selector i).toNat) (selector i) i [] ?_ ?_⟩
  · simp [State.withFetchWord]
  · exact decode_cons_eq_ok.mpr ⟨rfl, rfl⟩

/-! ## Permutations of bits (30_encoding.md R104, R105) -/

/-- The lowest bit goes to the highest place (R105). -/
theorem testBit_bitrev_succ_self (n v : Nat) : (bitrev (n + 1) v).testBit n = v.testBit 0 := by
  have hrest : (bitrev n (v / 2)).testBit n = false := Nat.testBit_lt_two_pow (bitrev_lt n _)
  simp [bitrev, hrest]

/-- Below the highest place stands the reversal of the other bits (R105). -/
theorem testBit_bitrev_succ_of_lt {n j : Nat} (h : j < n) (v : Nat) :
    (bitrev (n + 1) v).testBit j = (bitrev n (v / 2)).testBit j := by
  simp [bitrev, Nat.not_le.mpr h]

theorem testBit_bitrev {n k : Nat} (h : k < n) (v : Nat) : (bitrev n v).testBit (n - 1 - k) = v.testBit k := by
  induction n generalizing v k with
  | zero => omega
  | succ n ih =>
    cases k with
    | zero => exact testBit_bitrev_succ_self n v
    | succ k =>
      have hk : k < n := by omega
      have hplace : n + 1 - 1 - (k + 1) = n - 1 - k := by omega
      rw [hplace, testBit_bitrev_succ_of_lt (by omega), ih hk, Nat.testBit_succ]

theorem bswap16_bytes {b0 b1 : Nat} (h0 : b0 < 256) (h1 : b1 < 256) :
    bswap16 (2 ^ 8 * b1 + b0) = 2 ^ 8 * b0 + b1 := by
  have hlow : (2 ^ 8 * b1 + b0) % 2 ^ 8 = b0 := by omega
  have hhigh : (2 ^ 8 * b1 + b0) % 2 ^ 16 / 2 ^ 8 = b1 := by omega
  rw [bswap16, Nat.shiftRight_eq_div_pow, hlow, hhigh, or_shiftLeft_eq_add b1 b0 8 h1, Nat.add_comm]

/-- The four bytes laid over each other from the lowest up: each is added above those below it. -/
theorem bswap32_bytes {b0 b1 b2 b3 : Nat} (h0 : b0 < 256) (h1 : b1 < 256) (h2 : b2 < 256) (h3 : b3 < 256) :
    bswap32 (2 ^ 24 * b3 + 2 ^ 16 * b2 + 2 ^ 8 * b1 + b0) = 2 ^ 24 * b0 + 2 ^ 16 * b1 + 2 ^ 8 * b2 + b3 := by
  generalize hv : 2 ^ 24 * b3 + 2 ^ 16 * b2 + 2 ^ 8 * b1 + b0 = v
  have hb0 : v % 2 ^ 8 = b0 := by omega
  have hb1 : v / 2 ^ 8 % 2 ^ 8 = b1 := by omega
  have hb2 : v / 2 ^ 16 % 2 ^ 8 = b2 := by omega
  have hb3 : v / 2 ^ 24 % 2 ^ 8 = b3 := by omega
  simp only [bswap32, Nat.shiftRight_eq_div_pow, hb0, hb1, hb2, hb3]
  have hflip : b0 <<< 24 ||| b1 <<< 16 ||| b2 <<< 8 ||| b3 = ((b3 ||| b2 <<< 8) ||| b1 <<< 16) ||| b0 <<< 24 := by
    rw [Nat.or_comm, Nat.or_comm _ (b2 <<< 8), Nat.or_comm (b0 <<< 24), Nat.or_assoc, Nat.or_assoc]
  calc b0 <<< 24 ||| b1 <<< 16 ||| b2 <<< 8 ||| b3
      = ((b3 ||| b2 <<< 8) ||| b1 <<< 16) ||| b0 <<< 24 := hflip
    _ = ((b3 + 2 ^ 8 * b2) ||| b1 <<< 16) ||| b0 <<< 24 := by rw [or_shiftLeft_eq_add b3 b2 8 h3]
    _ = (b3 + 2 ^ 8 * b2 + 2 ^ 16 * b1) ||| b0 <<< 24 := by rw [or_shiftLeft_eq_add _ b1 16 (by omega)]
    _ = b3 + 2 ^ 8 * b2 + 2 ^ 16 * b1 + 2 ^ 24 * b0 := or_shiftLeft_eq_add _ b0 24 (by omega)
    _ = 2 ^ 24 * b0 + 2 ^ 16 * b1 + 2 ^ 8 * b2 + b3 := by omega

/-- Settles O30, by the lemmas on the three permutations. -/
theorem bitPermutations : Obligations.BitPermutations :=
  ⟨fun n v _ hk => ⟨testBit_bitrev hk v, bitrev_lt n v⟩, fun _ _ => bswap16_bytes, fun _ _ _ _ => bswap32_bytes⟩

/-! ## The first pair of zeros (30_encoding.md R106) -/

/-- Two zeros stand at place `k` of a text. -/
def ZerosAt (t : Text) (k : Nat) : Prop := t[k]? = some '0' ∧ t[k + 1]? = some '0'

@[simp] theorem zerosAt_cons_succ (c : Char) (t : Text) (k : Nat) : ZerosAt (c :: t) (k + 1) ↔ ZerosAt t k := by
  simp [ZerosAt]

@[simp] theorem zerosAt_cons_cons_zero (c d : Char) (t : Text) : ZerosAt (c :: d :: t) 0 ↔ c = '0' ∧ d = '0' := by
  simp [ZerosAt]

theorem zerosAt_drop (t : Text) (m k : Nat) : ZerosAt (t.drop m) k ↔ ZerosAt t (m + k) := by
  simp [ZerosAt, Nat.add_assoc]

theorem cutAtZeros_of_first {t : Text} {p : Nat} (hp : ZerosAt t p) (hfirst : ∀ k < p, ¬ZerosAt t k) :
    cutAtZeros t = t.take p := by
  induction t using cutAtZeros.induct generalizing p with
  | case1 => simp [ZerosAt] at hp
  | case2 c => simp [ZerosAt] at hp
  | case3 c d rest h =>
    cases p with
    | zero => simp [cutAtZeros, h]
    | succ p => exact absurd ((zerosAt_cons_cons_zero c d rest).mpr h) (hfirst 0 p.succ_pos)
  | case4 c d rest h ih =>
    cases p with
    | zero => exact absurd ((zerosAt_cons_cons_zero c d rest).mp hp) h
    | succ p =>
      have hcut : cutAtZeros (d :: rest) = (d :: rest).take p :=
        ih ((zerosAt_cons_succ ..).mp hp) fun k hk hz =>
          hfirst (k + 1) (Nat.succ_lt_succ hk) ((zerosAt_cons_succ ..).mpr hz)
      rw [cutAtZeros, if_neg h, hcut, List.take_succ_cons]

theorem cutAtZeros_of_none {t : Text} (hnone : ∀ k, ¬ZerosAt t k) : cutAtZeros t = t := by
  induction t using cutAtZeros.induct with
  | case1 => rfl
  | case2 c => rfl
  | case3 c d rest h => exact absurd ((zerosAt_cons_cons_zero c d rest).mpr h) (hnone 0)
  | case4 c d rest h ih =>
    rw [cutAtZeros, if_neg h, ih fun k hz => hnone (k + 1) ((zerosAt_cons_succ ..).mpr hz)]

theorem trunc00_of_first {t : Text} {p : Nat} (h2 : 2 ≤ p) (hp : ZerosAt t p)
    (hfirst : ∀ k, 2 ≤ k → k < p → ¬ZerosAt t k) : trunc00 t = t.take p := by
  obtain ⟨q, rfl⟩ := Nat.exists_eq_add_of_le h2
  have hcut : cutAtZeros (t.drop 2) = (t.drop 2).take q :=
    cutAtZeros_of_first ((zerosAt_drop ..).mpr hp) fun k hk hz =>
      hfirst (2 + k) (by omega) (by omega) ((zerosAt_drop ..).mp hz)
  rw [trunc00, hcut, List.take_add]

theorem trunc00_of_none {t : Text} (hnone : ∀ k, 2 ≤ k → ¬ZerosAt t k) : trunc00 t = t := by
  have hcut : cutAtZeros (t.drop 2) = t.drop 2 :=
    cutAtZeros_of_none fun k hz => hnone (2 + k) (by omega) ((zerosAt_drop ..).mp hz)
  rw [trunc00, hcut, List.take_append_drop]

/-! ## Hexadecimal digits (30_encoding.md R102) -/

/-- The three ranges of digits, by character code. -/
theorem hexDigit_eq_toNat (c : Char) : hexDigit c =
    if 48 ≤ c.toNat ∧ c.toNat ≤ 57 then some (c.toNat - 48)
    else if 97 ≤ c.toNat ∧ c.toNat ≤ 102 then some (c.toNat - 87)
    else if 65 ≤ c.toNat ∧ c.toNat ≤ 70 then some (c.toNat - 55)
    else none := rfl

theorem hexDigit_eq_none_iff {c : Char} : hexDigit c = none ↔ c ∉ "0123456789abcdefABCDEF".toList := by
  have houtside : hexDigit c = none ↔
      ¬(48 ≤ c.toNat ∧ c.toNat ≤ 57) ∧ ¬(97 ≤ c.toNat ∧ c.toNat ≤ 102) ∧ ¬(65 ≤ c.toNat ∧ c.toNat ≤ 70) := by
    rw [hexDigit_eq_toNat]
    split_ifs <;> simp_all
  rw [houtside]
  simp [← Char.toNat_inj]
  omega

theorem toNat_toLower_of_upper {c : Char} (h : 65 ≤ c.toNat ∧ c.toNat ≤ 90) : c.toLower.toNat = c.toNat + 32 := by
  have hupper : c.val ≥ 'A'.val ∧ c.val ≤ 'Z'.val := h
  have hfits : c.toNat + 32 < 2 ^ 32 := by omega
  rw [Char.toLower, dif_pos hupper]
  exact Nat.mod_eq_of_lt hfits

theorem toLower_of_not_upper {c : Char} (h : ¬(65 ≤ c.toNat ∧ c.toNat ≤ 90)) : c.toLower = c :=
  dif_neg h

/-- A digit's value does not depend on its case (R102). -/
theorem hexDigit_toLower (c : Char) : hexDigit c.toLower = hexDigit c := by
  by_cases hupper : 65 ≤ c.toNat ∧ c.toNat ≤ 90
  · have hcode := toNat_toLower_of_upper hupper
    rw [hexDigit_eq_toNat, hexDigit_eq_toNat, hcode]
    split_ifs <;> grind
  · rw [toLower_of_not_upper hupper]

theorem hexDigit_digitChar {d : Nat} (h : d < 16) : hexDigit d.digitChar = some d := by
  interval_cases d <;> rfl

theorem hexDigit_space : hexDigit ' ' = none := rfl

/-! ## Hexadecimal fields (30_encoding.md R102, R103) -/

theorem hexDigits_cons (c : Char) (t : Text) :
    hexDigits (c :: t) = (hexDigit c).bind fun d => (hexDigits t).map (d :: ·) := by
  cases hc : hexDigit c <;> cases ht : hexDigits t <;> simp [hexDigits, hc, ht]

theorem hexDigits_eq_none_iff {t : Text} : hexDigits t = none ↔ ∃ c ∈ t, hexDigit c = none := by
  induction t with
  | nil => simp [hexDigits]
  | cons c t ih => cases hc : hexDigit c <;> simp [hexDigits_cons, hc, ih]

/-- The digits of a text are its characters read one by one (R102). -/
theorem hexDigits_eq_some_iff {t : Text} {ds : List Nat} :
    hexDigits t = some ds ↔ t.map hexDigit = ds.map some := by
  induction t generalizing ds with
  | nil => cases ds <;> simp [hexDigits]
  | cons c t ih => cases ds <;> simp [hexDigits_cons, Option.bind_eq_some_iff, ih]

theorem strip_strip (t : Text) : strip (strip t) = strip t := by
  simp [strip]

theorem hexField_eq (t : Text) : hexField t = if strip t = [] then none else hexDigits (strip t) := by
  unfold hexField
  split
  · next h => rw [if_pos h]
  · next c cs h => rw [h, if_neg (List.cons_ne_nil c cs)]

theorem hexval_strip (t : Text) : hexval (strip t) = hexval t := by
  rw [hexval, hexval, hexField_eq, hexField_eq, strip_strip]

theorem hexval_eq_none_iff {t : Text} :
    hexval t = none ↔ strip t = [] ∨ ∃ c ∈ strip t, hexDigit c = none := by
  rw [hexval, Option.map_eq_none_iff, hexField_eq]
  by_cases hempty : strip t = [] <;> simp [hempty, hexDigits_eq_none_iff]

theorem hexField_eq_some_iff {t : Text} {ds : List Nat} :
    hexField t = some ds ↔ strip t ≠ [] ∧ (strip t).map hexDigit = ds.map some := by
  rw [hexField_eq]
  by_cases hempty : strip t = [] <;> simp [hempty, hexDigits_eq_some_iff]

/-- A text of digits holds no space. -/
theorem strip_of_digits {t : Text} {ds : List Nat} (h : t.map hexDigit = ds.map some) : strip t = t := by
  refine List.filter_eq_self.mpr fun c hc => ?_
  have hmem : hexDigit c ∈ ds.map some := h ▸ List.mem_map_of_mem hc
  obtain ⟨d, -, hd⟩ := List.mem_map.mp hmem
  have hne : c ≠ ' ' := by
    rintro rfl
    rw [hexDigit_space] at hd
    cases hd
  simpa using hne

/-- A text of digits, at least one, is their numeral (R102). -/
theorem hexval_of_digits {t : Text} {ds : List Nat} (hne : t ≠ []) (h : t.map hexDigit = ds.map some) :
    hexval t = some (hexNumeral ds) := by
  have hstrip := strip_of_digits h
  have hfield : hexField t = some ds := hexField_eq_some_iff.mpr (by rw [hstrip]; exact ⟨hne, h⟩)
  rw [hexval, hfield, Option.map_some]

/-- `first_byte` reads the first two characters of a field that has digits only (R103). -/
theorem firstByte_eq (t : Text) :
    firstByte t = if hexval t = none then none else hexval ((strip t).take 2) := by
  cases hfield : hexField t with
  | none => simp [firstByte, hexval, hfield]
  | some ds =>
    obtain ⟨hne, hdigits⟩ := hexField_eq_some_iff.mp hfield
    have htake : hexval ((strip t).take 2) = some (hexNumeral (ds.take 2)) :=
      hexval_of_digits (by simpa using hne) (by rw [List.map_take, hdigits, List.map_take])
    rw [htake]
    simp [firstByte, hexval, hfield]

/-! ## Numerals (30_encoding.md R102) -/

theorem hexNumeral_append_singleton (ds : List Nat) (d : Nat) : hexNumeral (ds ++ [d]) = 16 * hexNumeral ds + d := by
  simp [hexNumeral]

/-- Leading zeros do not count. -/
theorem hexNumeral_zeros_append (zeros : Nat) (ds : List Nat) :
    hexNumeral (List.replicate zeros 0 ++ ds) = hexNumeral ds := by
  induction zeros with
  | zero => rfl
  | succ zeros ih => exact ih

/-- The digits of a number's own numeral, and their value. -/
theorem exists_digits_toDigits (n : Nat) :
    ∃ ds, (Nat.toDigits 16 n).map hexDigit = ds.map some ∧ hexNumeral ds = n := by
  induction n using Nat.strongRecOn with
  | ind n ih =>
    by_cases hsmall : n < 16
    · refine ⟨[n], ?_, by simp [hexNumeral]⟩
      rw [Nat.toDigits_of_lt_base hsmall, List.map_singleton, hexDigit_digitChar hsmall, List.map_singleton]
    · obtain ⟨ds, hdigits, hvalue⟩ := ih (n / 16) (by omega)
      refine ⟨ds ++ [n % 16], ?_, ?_⟩
      · rw [Nat.toDigits_of_base_le (by omega) (by omega), List.map_append, List.map_append, hdigits,
          List.map_singleton, hexDigit_digitChar (Nat.mod_lt n (by omega)), List.map_singleton]
      · rw [hexNumeral_append_singleton, hvalue]
        omega

/-- A numeral of either case, with leading zeros, reads as its number (R102). -/
theorem hexval_numeral {n zeros : Nat} {t : Text}
    (h : t.map Char.toLower = List.replicate zeros '0' ++ Nat.toDigits 16 n) : hexval t = some n := by
  obtain ⟨ds, hdigits, hvalue⟩ := exists_digits_toDigits n
  have hread : t.map hexDigit = (List.replicate zeros 0 ++ ds).map some := by
    calc t.map hexDigit = (t.map Char.toLower).map hexDigit := by simp [Function.comp_def, hexDigit_toLower]
      _ = (List.replicate zeros '0').map hexDigit ++ (Nat.toDigits 16 n).map hexDigit := by rw [h, List.map_append]
      _ = _ := by
        rw [hdigits, List.map_append, List.map_replicate, List.map_replicate]
        rfl
  have hne : t ≠ [] := by
    rintro rfl
    simp [Nat.toDigits_ne_nil] at h
  rw [hexval_of_digits hne hread, hexNumeral_zeros_append, hvalue]

/-- Settles O29: the clauses on malformed fields, spaces and `first_byte`, on numerals, and on `trunc00`. -/
theorem hexFieldsAreNumerals : Obligations.HexFieldsAreNumerals := by
  refine ⟨fun t => ⟨?malformed, (hexval_strip t).symm, rfl, firstByte_eq t⟩, fun _ _ _ => hexval_numeral,
    fun t => ⟨fun p h2 hp hp' hfirst => trunc00_of_first h2 ⟨hp, hp'⟩ hfirst, trunc00_of_none⟩⟩
  case malformed =>
    rw [hexval_eq_none_iff]
    simp only [strip, hexDigit_eq_none_iff, List.mem_filter, decide_eq_true_eq, and_assoc]

end Sys2Proof.Machine
end

section
/-! PROOFS. The timing-sequence primitives: APPENDRUN splits a pulse (O14), COALESCE sums the groups of one polarity
(O15), and its results are timing sequences that it leaves as they are (O16). -/

namespace Sys2Proof.Machine

/-! ## The chunks of a pulse (40_primitives.md R130) -/

theorem chunks_eq (p : Polarity) (d : Nat) :
    chunks p d = List.replicate (d / 65535) { pol := p, dur := 65535 } ++
      if d % 65535 = 0 then [] else [{ pol := p, dur := d % 65535 }] := rfl

theorem chunks_length (p : Polarity) (d : Nat) : (chunks p d).length = (d + 65534) / 65535 := by
  rw [chunks_eq, List.length_append, List.length_replicate]
  split
  · rw [List.length_nil]
    omega
  · rw [List.length_singleton]
    omega

theorem chunks_sum (p : Polarity) (d : Nat) : ((chunks p d).map (·.dur)).sum = d := by
  have full : ((List.replicate (d / 65535) ({ pol := p, dur := 65535 } : Run)).map (·.dur)).sum =
      d / 65535 * 65535 := by
    rw [List.map_replicate, List.sum_replicate_nat]
  rw [chunks_eq, List.map_append, List.sum_append, full]
  split
  · rw [List.map_nil, List.sum_nil]
    omega
  · rw [List.map_singleton, List.sum_singleton]
    exact Nat.div_add_mod' d 65535

theorem chunks_wf {p : Polarity} {d : Nat} {r : Run} (h : r ∈ chunks p d) :
    r.pol = p ∧ 1 ≤ r.dur ∧ r.dur ≤ 65535 := by
  rw [chunks_eq, List.mem_append] at h
  rcases h with hfull | hrest
  · rw [List.eq_of_mem_replicate hfull]
    simp
  · split at hrest
    · cases hrest
    · next hne =>
      rw [List.mem_singleton.mp hrest]
      exact ⟨rfl, Nat.one_le_iff_ne_zero.mpr hne, (Nat.mod_lt d (by decide)).le⟩

/-- Only the last chunk may be short. -/
theorem chunks_dropLast_full {p : Polarity} {d : Nat} {r : Run} (h : r ∈ (chunks p d).dropLast) : r.dur = 65535 := by
  have hfull : r ∈ List.replicate (d / 65535) { pol := p, dur := 65535 } := by
    rw [chunks_eq] at h
    split at h
    · rw [List.append_nil] at h
      exact List.mem_of_mem_dropLast h
    · rwa [List.dropLast_concat] at h
  rw [List.eq_of_mem_replicate hfull]

/-- Settles O14: what APPENDRUN appends are the chunks of the pulse. -/
theorem appendrunSplitsPulse : Obligations.AppendrunSplitsPulse := by
  intro s hfault
  refine ⟨chunks s.args.pol s.args.dur, ?runs, chunks_sum _ _, chunks_length _ _, fun _ => chunks_wf,
    fun _ => chunks_dropLast_full⟩
  calc exec .primAppendrun s = execPrimAppendrun s := rfl
    _ = _ := by rw [execPrimAppendrun, issue_eq, operate_of_usable _ hfault, finish, appendRun]

/-! ## One turn of COALESCE (40_primitives.md R131) -/

/-- The polarity that the entries so far, the last one first, end in; the line is idle before the first. -/
def lastPol : List Run → Polarity
  | [] => .space
  | last :: _ => last.pol

/-- A zero run changes nothing. -/
theorem coalesceStep_zero (out : List Run) {r : Run} (h : r.dur = 0) : coalesceStep out r = out :=
  if_pos h

/-- Idle before the first mark is dropped. -/
theorem coalesceStep_leading_space {r : Run} (h : r.pol = .space) : coalesceStep [] r = [] := by
  simp [coalesceStep, h]

/-- A run of the other polarity begins an entry. -/
theorem coalesceStep_of_ne {out : List Run} {r : Run} (hpol : lastPol out ≠ r.pol) (hdur : r.dur ≠ 0) :
    coalesceStep out r = { pol := r.pol, dur := min 65535 r.dur } :: out := by
  cases out with
  | nil =>
    cases hr : r.pol with
    | mark => simp [coalesceStep, hdur, hr]
    | space => exact absurd hr.symm hpol
  | cons last before =>
    have hne : last.pol ≠ r.pol := hpol
    simp [coalesceStep, hdur, hne]

/-- A run of the last entry's polarity merges into it: the entry's own cap does not show in the capped sum. -/
theorem coalesceStep_merge (p : Polarity) (n : Nat) (out : List Run) {r : Run} (hpol : r.pol = p) :
    coalesceStep ({ pol := p, dur := min 65535 n } :: out) r = { pol := p, dur := min 65535 (n + r.dur) } :: out := by
  by_cases hdur : r.dur = 0
  · rw [coalesceStep_zero _ hdur, hdur, Nat.add_zero]
  · have hsum : min 65535 (min 65535 n + r.dur) = min 65535 (n + r.dur) := by omega
    simp [coalesceStep, hdur, hpol, hsum]

/-! ## The turns over a run list -/

theorem foldl_coalesceStep_filter (runs out : List Run) :
    (runs.filter (fun r => decide (r.dur ≠ 0))).foldl coalesceStep out = runs.foldl coalesceStep out := by
  induction runs generalizing out with
  | nil => rfl
  | cons r runs ih =>
    by_cases hdur : r.dur = 0
    · rw [List.filter_cons_of_neg (by simpa using hdur), List.foldl_cons, coalesceStep_zero out hdur, ih]
    · rw [List.filter_cons_of_pos (by simpa using hdur), List.foldl_cons, List.foldl_cons, ih]

theorem foldl_coalesceStep_dropWhile (runs : List Run) :
    (runs.dropWhile (fun r => decide (r.pol = .space))).foldl coalesceStep [] = runs.foldl coalesceStep [] := by
  induction runs with
  | nil => rfl
  | cons r runs ih =>
    by_cases hpol : r.pol = .space
    · rw [List.dropWhile_cons_of_pos (by simpa using hpol), List.foldl_cons, coalesceStep_leading_space hpol, ih]
    · rw [List.dropWhile_cons_of_neg (by simpa using hpol)]

/-- Runs of the last entry's polarity all merge into it. -/
theorem foldl_coalesceStep_merge (p : Polarity) (n : Nat) (out g : List Run) (hpol : ∀ r ∈ g, r.pol = p) :
    g.foldl coalesceStep ({ pol := p, dur := min 65535 n } :: out) =
      { pol := p, dur := min 65535 (n + (g.map (·.dur)).sum) } :: out := by
  induction g generalizing n with
  | nil => rfl
  | cons r g ih =>
    obtain ⟨hr, hg⟩ := List.forall_mem_cons.mp hpol
    rw [List.foldl_cons, coalesceStep_merge p n out hr, ih _ hg, List.map_cons, List.sum_cons, Nat.add_assoc]

/-! ## Groups of one polarity -/

/-- Two runs of one polarity. -/
def samePol (a b : Run) : Bool := decide (a.pol = b.pol)

/-- The duration of a group: its sum, capped (R131). -/
def groupDur (g : List Run) : Nat := min 65535 (g.map (·.dur)).sum

theorem mem_takeWhile_samePol {r x : Run} {runs : List Run} (h : x ∈ runs.takeWhile (samePol r)) : x.pol = r.pol := by
  have hsame : samePol r x = true := List.mem_takeWhile_imp h
  exact (of_decide_eq_true hsame).symm

theorem head_dropWhile_samePol {r x : Run} {runs : List Run} (h : x ∈ (runs.dropWhile (samePol r)).head?) :
    r.pol ≠ x.pol := by
  have hnot := List.head?_dropWhile_not (samePol r) runs
  rw [Option.mem_def.mp h] at hnot
  simpa [samePol] using hnot

/-- The first group is the first run with the runs of its polarity right after it. -/
theorem splitBy_samePol_cons (r : Run) (runs : List Run) :
    (r :: runs).splitBy samePol =
      (r :: runs.takeWhile (samePol r)) :: (runs.dropWhile (samePol r)).splitBy samePol := by
  have pols : ∀ x ∈ r :: runs.takeWhile (samePol r), x.pol = r.pol :=
    List.forall_mem_cons.mpr ⟨rfl, fun _ => mem_takeWhile_samePol⟩
  have chain : (r :: runs.takeWhile (samePol r)).IsChain (fun a b => samePol a b) :=
    (List.pairwise_of_forall_mem_list fun a ha b hb =>
      decide_eq_true ((pols a ha).trans (pols b hb).symm)).isChain
  calc (r :: runs).splitBy samePol
      = ((r :: runs.takeWhile (samePol r)) ++ runs.dropWhile (samePol r)).splitBy samePol := by
        rw [List.cons_append, List.takeWhile_append_dropWhile]
    _ = (r :: runs.takeWhile (samePol r)).splitBy samePol ++ (runs.dropWhile (samePol r)).splitBy samePol := by
        refine List.splitBy_append fun a ha b hb => decide_eq_false ?_
        rw [pols a (List.mem_of_mem_getLast? ha)]
        exact head_dropWhile_samePol hb
    _ = _ := by rw [List.splitBy_of_isChain (List.cons_ne_nil _ _) chain, List.singleton_append]

/-- The first group becomes one entry, if it does not go on with the last entry. -/
theorem foldl_coalesceStep_first_group {r : Run} {out : List Run} (runs : List Run) (hpol : lastPol out ≠ r.pol)
    (hdur : r.dur ≠ 0) :
    (r :: runs).foldl coalesceStep out =
      (runs.dropWhile (samePol r)).foldl coalesceStep
        ({ pol := r.pol, dur := groupDur (r :: runs.takeWhile (samePol r)) } :: out) := by
  calc (r :: runs).foldl coalesceStep out
      = (runs.dropWhile (samePol r)).foldl coalesceStep
          ((runs.takeWhile (samePol r)).foldl coalesceStep (coalesceStep out r)) := by
        rw [List.foldl_cons, ← List.foldl_append, List.takeWhile_append_dropWhile]
    _ = _ := by
        rw [coalesceStep_of_ne hpol hdur, foldl_coalesceStep_merge r.pol r.dur out _ fun _ => mem_takeWhile_samePol,
          groupDur, List.map_cons, List.sum_cons]

/-- Each group of runs, none of them zero, becomes one entry, if the first does not go on with the last entry. -/
theorem foldl_coalesceStep_groups (runs out : List Run) (hdur : ∀ r ∈ runs, r.dur ≠ 0)
    (hhead : ∀ r ∈ runs.head?, lastPol out ≠ r.pol) :
    (runs.foldl coalesceStep out).map (·.dur) =
      ((runs.splitBy samePol).map groupDur).reverse ++ out.map (·.dur) := by
  match runs with
  | [] => rw [List.foldl_nil, List.splitBy_nil, List.map_nil, List.reverse_nil, List.nil_append]
  | r :: runs =>
    obtain ⟨hr, hruns⟩ := List.forall_mem_cons.mp hdur
    have shorter : (runs.dropWhile (samePol r)).length ≤ runs.length := List.length_dropWhile_le _ runs
    have nonzero : ∀ x ∈ runs.dropWhile (samePol r), x.dur ≠ 0 :=
      fun x hx => hruns x ((List.dropWhile_sublist _).subset hx)
    rw [foldl_coalesceStep_first_group runs (hhead r rfl) hr,
      foldl_coalesceStep_groups _ _ nonzero (fun _ => head_dropWhile_samePol), splitBy_samePol_cons, List.map_cons,
      List.map_cons, List.reverse_cons, List.append_assoc, List.singleton_append]
termination_by runs.length

/-! ## COALESCE as a whole -/

/-- What COALESCE takes up: the runs that are not zero, from the first mark on (R131). -/
def activeRuns (runs : List Run) : List Run :=
  (runs.filter (fun r => decide (r.dur ≠ 0))).dropWhile (fun r => decide (r.pol = .space))

theorem activeRuns_ne_zero {runs : List Run} {r : Run} (h : r ∈ activeRuns runs) : r.dur ≠ 0 := by
  have hfilter := (List.dropWhile_sublist _).subset h
  simpa using (List.mem_filter.mp hfilter).2

theorem head_activeRuns {runs : List Run} {r : Run} (h : r ∈ (activeRuns runs).head?) : r.pol ≠ .space := by
  have hnot := List.head?_dropWhile_not (fun r : Run => decide (r.pol = .space))
    (runs.filter (fun r => decide (r.dur ≠ 0)))
  rw [← activeRuns, Option.mem_def.mp h] at hnot
  exact of_decide_eq_false hnot

theorem foldl_coalesceStep_activeRuns (runs : List Run) :
    (activeRuns runs).foldl coalesceStep [] = runs.foldl coalesceStep [] := by
  rw [activeRuns, foldl_coalesceStep_dropWhile, foldl_coalesceStep_filter]

/-- COALESCE of a run list in the terms of its rule (R131). -/
theorem coalesce_eq_groups (runs : List Run) :
    coalesce runs = padSeq (((activeRuns runs).splitBy samePol).map groupDur) := by
  rw [coalesce, ← foldl_coalesceStep_activeRuns, List.map_reverse,
    foldl_coalesceStep_groups _ [] (fun _ => activeRuns_ne_zero) (fun _ h => (head_activeRuns h).symm), List.map_nil,
    List.append_nil, List.reverse_reverse]

/-- Settles O15: the turns of COALESCE leave one entry for each group (`coalesce_eq_groups`). -/
theorem coalesceSumsGroups : Obligations.CoalesceSumsGroups := by
  intro s hfault
  calc exec .primCoalesce s = execPrimCoalesce s := rfl
    _ = .next { s with seq := coalesce s.args.runs, result := .ok, value := .none } := by
      rw [execPrimCoalesce, issue_eq, operate_of_usable _ hfault, finish, done]
    _ = _ := by
      rw [coalesce_eq_groups]
      rfl

/-! ## COALESCE of the runs of a timing sequence (40_primitives.md R134) -/

/-- Runs that alternate from the polarity after the last entry on, each in range, are entries as they stand. -/
theorem foldl_coalesceStep_runsFrom (q : List Nat) (p : Polarity) (out : List Run) (hpol : lastPol out ≠ p)
    (hrange : ∀ d ∈ q, 1 ≤ d ∧ d ≤ 65535) :
    (runsFrom p q).foldl coalesceStep out = (runsFrom p q).reverse ++ out := by
  induction q generalizing p out with
  | nil => rfl
  | cons d q ih =>
    obtain ⟨⟨hlow, hhigh⟩, hq⟩ := List.forall_mem_cons.mp hrange
    have alternates : lastPol ({ pol := p, dur := d } :: out) ≠ opposite p := by
      cases p <;> nofun
    rw [runsFrom, List.foldl_cons, coalesceStep_of_ne (r := { pol := p, dur := d }) hpol (Nat.ne_of_gt hlow),
      Nat.min_eq_right hhigh, ih _ _ alternates hq, List.reverse_cons, List.append_assoc, List.singleton_append]

theorem runsFrom_durs (q : List Nat) (p : Polarity) : (runsFrom p q).map (·.dur) = q := by
  induction q generalizing p with
  | nil => rfl
  | cons d q ih => rw [runsFrom, List.map_cons, ih]

theorem padSeq_of_even {q : List Nat} (h : q.length % 2 = 0) : padSeq q = q :=
  if_neg (by omega)

/-- COALESCE leaves the runs of a timing sequence as they are. -/
theorem coalesce_runsOf {q : TimingSeq} (h : TimingSeq.wf q = true) : coalesce (runsOf q) = q := by
  obtain ⟨heven, hrange⟩ := (timingSeqWf_iff q).mp h
  rw [coalesce, runsOf, foldl_coalesceStep_runsFrom q .mark [] nofun hrange, List.append_nil, List.reverse_reverse,
    runsFrom_durs, padSeq_of_even heven]

/-- Settles O16: a result of COALESCE is a timing sequence (`coalesce_wf`), which COALESCE keeps (`coalesce_runsOf`). -/
theorem coalesceWellFormedAndIdempotent : Obligations.CoalesceWellFormedAndIdempotent := by
  intro runs
  obtain ⟨heven, hrange⟩ := (timingSeqWf_iff _).mp (coalesce_wf runs)
  exact ⟨heven, hrange, coalesce_runsOf (coalesce_wf runs)⟩

end Sys2Proof.Machine
end

section
/-! PROOFS. The encoding families: each builder's runs are the APPENDRUN calls of its rule, header, bits in order of
transmission and trailer (O17, O18, O19). -/

namespace Sys2Proof.Machine

/-! ## Calls of APPENDRUN and the runs they make (40_primitives.md R130) -/

theorem appendAll_append (calls more : List (Polarity × Nat)) :
    appendAll (calls ++ more) = appendAll calls ++ appendAll more := by
  simp only [appendAll_eq, List.flatMap_append]

theorem appendAll_flatMap {α : Type} (l : List α) (calls : α → List (Polarity × Nat)) :
    appendAll (l.flatMap calls) = l.flatMap (fun a => appendAll (calls a)) := by
  simp only [appendAll_eq, List.flatMap_assoc]

/-- Two calls, as every cell of a family makes them. -/
theorem appendAll_pair (p q : Polarity) (d e : Nat) : appendAll [(p, d), (q, e)] = chunks p d ++ chunks q e := rfl

theorem appendAll_headerCalls (p : ProtocolSpec) : appendAll (headerCalls p) = headerRuns p :=
  (appendAll_eq _).trans (headerCalls_chunks p)

theorem appendAll_trailerCalls (p : ProtocolSpec) : appendAll (trailerCalls p) = trailerRuns p :=
  (appendAll_eq _).trans (trailerCalls_chunks p)

/-! ## The bits of a frame (41_encoder_families.md R150) -/

/-- The calls of the bits `0 .. n-1` in order of transmission, bit by bit as `calls` says. -/
def bitCalls (calls : (i : Nat) → Bool → List (Polarity × Nat)) (p : ProtocolSpec) (data n : Nat) :
    List (Polarity × Nat) :=
  (List.range n).flatMap (fun i => calls i (bitSent p data n i))

/-- Calls that make a family's cell for each bit make the runs of the whole frame. -/
theorem appendAll_bitCalls {calls : Nat → Bool → List (Polarity × Nat)} {cell : Nat → Bool → List Run}
    (hcell : ∀ i b, appendAll (calls i b) = cell i b) (p : ProtocolSpec) (data n : Nat) :
    appendAll (bitCalls calls p data n) = bitRuns cell p.bitOrder data n := by
  simp only [bitCalls, bitRuns, appendAll_flatMap, hcell, bitSent_eq_sentBit]

/-! ## The cell of each family as calls (R151, R152, R153) -/

/-- A bit of the pulse-distance family: mark and space both come from the bit. -/
def pdCalls (p : ProtocolSpec) (b : Bool) : List (Polarity × Nat) :=
  if b then [(.mark, p.oneMark), (.space, p.oneSpace)] else [(.mark, p.zeroMark), (.space, p.zeroSpace)]

/-- A bit of the pulse-width family: the mark carries the bit. -/
def pwCalls (p : ProtocolSpec) (b : Bool) : List (Polarity × Nat) :=
  [(.mark, if b then p.oneMark else p.zeroMark), (.space, p.zeroSpace)]

/-- A bit of the biphase family: two half-periods, whose order carries the bit. -/
def biphaseCalls (p : ProtocolSpec) (i : Nat) (b : Bool) : List (Polarity × Nat) :=
  if b = p.oneActiveFirst then [(.mark, halfPeriod p i), (.space, halfPeriod p i)]
  else [(.space, halfPeriod p i), (.mark, halfPeriod p i)]

theorem appendAll_pdCalls (p : ProtocolSpec) (b : Bool) : appendAll (pdCalls p b) = pdCell p b := by
  cases b
  case false => exact appendAll_pair .mark .space p.zeroMark p.zeroSpace
  case true => exact appendAll_pair .mark .space p.oneMark p.oneSpace

theorem appendAll_pwCalls (p : ProtocolSpec) (b : Bool) : appendAll (pwCalls p b) = pwCell p b :=
  appendAll_pair .mark .space _ p.zeroSpace

theorem appendAll_biphaseCalls (p : ProtocolSpec) (i : Nat) (b : Bool) :
    appendAll (biphaseCalls p i b) = biphaseCell p i b := by
  unfold biphaseCalls biphaseCell
  split
  · exact appendAll_pair .mark .space _ _
  · exact appendAll_pair .space .mark _ _

/-! ## The builders as calls -/

theorem famPd_eq_calls (p : ProtocolSpec) (data n : Nat) :
    famPd p data n =
      coalesce (appendAll (headerCalls p ++ bitCalls (fun _ => pdCalls p) p data n ++ trailerCalls p)) := by
  rw [famPd, appendAll_append, appendAll_append, appendAll_headerCalls, appendAll_trailerCalls,
    appendAll_bitCalls fun _ => appendAll_pdCalls p]

theorem famPw_eq_calls (p : ProtocolSpec) (data n : Nat) :
    famPw p data n =
      coalesce (appendAll (headerCalls p ++ bitCalls (fun _ => pwCalls p) p data n ++ trailerCalls p)) := by
  rw [famPw, appendAll_append, appendAll_append, appendAll_headerCalls, appendAll_trailerCalls,
    appendAll_bitCalls fun _ => appendAll_pwCalls p]

theorem famBiphase_eq_calls (p : ProtocolSpec) (data n : Nat) :
    famBiphase p data n = coalesce (appendAll (headerCalls p ++ bitCalls (biphaseCalls p) p data n)) := by
  rw [famBiphase, appendAll_append, appendAll_headerCalls, appendAll_bitCalls (appendAll_biphaseCalls p)]

/-! ## The three operations -/

/-- An operation that only writes `SEQ` completes with nothing else changed but `RESULT` and the value port (R309). -/
theorem issue_writesSeq (f : State → TimingSeq) {s : State} (hfault : s.fault = false) :
    issue (fun s => done { s with seq := f s }) s = .next { s with seq := f s, result := .ok, value := .none } := by
  rw [issue_eq, operate_of_usable _ hfault, finish, done]

/-- Settles O17: the calls of header, pulse-distance cells and trailer make the builder's runs (`famPd_eq_calls`). -/
theorem pulseDistanceBuilder : Obligations.PulseDistanceBuilder := by
  intro s hfault
  calc exec .famPd s = execFamPd s := rfl
    _ = .next { s with seq := famPd s.args.spec s.args.word s.args.nbits, result := .ok, value := .none } :=
      issue_writesSeq _ hfault
    _ = _ := by
      rw [famPd_eq_calls]
      rfl

/-- Settles O18: as O17, with the pulse-width cells (`famPw_eq_calls`). -/
theorem pulseWidthBuilder : Obligations.PulseWidthBuilder := by
  intro s hfault
  calc exec .famPw s = execFamPw s := rfl
    _ = .next { s with seq := famPw s.args.spec s.args.word s.args.nbits, result := .ok, value := .none } :=
      issue_writesSeq _ hfault
    _ = _ := by
      rw [famPw_eq_calls]
      rfl

/-- Settles O19: the calls of header and half-periods make the builder's runs (`famBiphase_eq_calls`). -/
theorem biphaseBuilder : Obligations.BiphaseBuilder := by
  intro s hfault
  calc exec .famBiphase s = execFamBiphase s := rfl
    _ = .next { s with seq := famBiphase s.args.spec s.args.word s.args.nbits, result := .ok, value := .none } :=
      issue_writesSeq _ hfault
    _ = _ := by
      rw [famBiphase_eq_calls]
      rfl

end Sys2Proof.Machine
end

section
/-! PROOFS. The named encoders: what all nine have in common (O28), the dispatch of ENC.AUTO (O27), raw replay (O26)
and the packed word of each protocol (O20 to O25). -/

namespace Sys2Proof.Machine

/-! ## The end of an encoder (42_encoder_protocols.md R182, R183) -/

/-- Bodies that end alike on a state are the same operation on it. -/
theorem issue_congr {body body' : State → Ended} {s : State} (h : body s = body' s) : issue body s = issue body' s := by
  rw [issue_eq, issue_eq, operate, operate, h]

section
variable {s : State} (hfault : s.fault = false) {r : State → Except ResultCode TimingSeq}
include hfault

theorem issue_writeSeq_of_ok {q : TimingSeq} (hr : r s = .ok q) :
    issue (fun s => writeSeq (r s) s) s = .next { s with seq := q, result := .ok, value := .none } := by
  rw [issue_eq, operate_of_usable _ hfault, hr]
  rfl

theorem issue_writeSeq_of_error {c : ResultCode} (hr : r s = .error c) :
    issue (fun s => writeSeq (r s) s) s = .next { s with result := c, value := .none } := by
  rw [issue_eq, operate_of_usable _ hfault, hr]
  rfl

end

/-! ## A builder of two operands (R182, R183) -/

section
variable {p : Params} {name : Text} {addr cmd : Option Nat} {frame : ProtocolSpec → Nat → Nat → TimingSeq}

theorem encodeWith_of_missing (hrow : p.table.lookup name = none) :
    encodeWith p name addr cmd frame = .error .eNotSupported := by
  simp only [encodeWith, rowOf, hrow]

theorem encodeWith_of_malformed {row : ProtocolSpec} (hrow : p.table.lookup name = some row)
    (hoperand : addr = none ∨ cmd = none) : encodeWith p name addr cmd frame = .error .eMalformedHex := by
  rcases hoperand with rfl | rfl
  · simp only [encodeWith, rowOf, hrow]
  · cases addr <;> simp only [encodeWith, rowOf, hrow]

theorem encodeWith_of_some {row : ProtocolSpec} {a c : Nat} (hrow : p.table.lookup name = some row)
    (ha : addr = some a) (hc : cmd = some c) : encodeWith p name addr cmd frame = .ok (frame row a c) := by
  simp only [encodeWith, rowOf, hrow, ha, hc]

end

/-! ## The dispatch of ENC.AUTO on `PROTO` (R170) -/

/-- The encoder of a name that is a key of the table. -/
def encodeNamed (name : Text) (p : Params) (x : Command) : Except ResultCode TimingSeq :=
  if name = necName then encNec p x
  else if name = necextName then encNecext p x
  else if name = rc5Name then encRc5 p x
  else if name = rc6Name then encRc6 p x
  else if name = samsung32Name then encSamsung32 p x
  else if name = sircName then sircBuild p sircName 12 x
  else if name = sirc15Name then sircBuild p sirc15Name 15 x
  else if name = sirc20Name then sircBuild p sirc20Name 20 x
  else if name = kaseikyoName then encKaseikyo p x
  else .error .eNotSupported

/-- The names with a builder (R101). -/
def builderNames : List Text :=
  [necName, necextName, rc5Name, rc6Name, samsung32Name, sircName, sirc15Name, sirc20Name, kaseikyoName]

theorem encodeNamed_of_unknown {name : Text} (h : name ∉ builderNames) (p : Params) (x : Command) :
    encodeNamed name p x = .error .eNotSupported := by
  simp only [builderNames, List.mem_cons, List.not_mem_nil, or_false, not_or] at h
  simp only [encodeNamed, h, if_false]

section
variable {p : Params} {x : Command}

theorem encAuto_of_raw (htype : x.type = rawType) : encAuto p x = encRaw x := if_pos htype

theorem encAuto_of_other_type (hraw : x.type ≠ rawType) (hparsed : x.type ≠ parsedType) :
    encAuto p x = .error .eNotSupported := by
  rw [encAuto, if_neg hraw, if_pos hparsed]

theorem encAuto_of_parsed (htype : x.type = parsedType) : encAuto p x =
    if (p.table.lookup x.protocol).isNone then .error .eNotSupported else encodeNamed x.protocol p x := by
  have hraw : x.type ≠ rawType := by rw [htype]; decide
  rw [encAuto, if_neg hraw, if_neg (not_not_intro htype)]
  rfl

theorem encAuto_of_missing (htype : x.type = parsedType) (hrow : p.table.lookup x.protocol = none) :
    encAuto p x = .error .eNotSupported := by
  rw [encAuto_of_parsed htype, hrow]
  rfl

theorem encAuto_of_key (htype : x.type = parsedType) (hrow : p.table.lookup x.protocol ≠ none) :
    encAuto p x = encodeNamed x.protocol p x := by
  rw [encAuto_of_parsed htype, if_neg (mt Option.isNone_iff_eq_none.mp hrow)]

end

/-! ## What the nine named encoders have in common -/

/-- The operation `i` builds, from the row `name`, the frame of its two operands, each read by `operand`; ENC.AUTO
selects it by `name`. -/
structure NamedEncoder (i : Instr) (name : Text) (operand : Text → Option Nat)
    (frame : Params → ProtocolSpec → Nat → Nat → TimingSeq) : Prop where
  exec_eq : ∀ s : State, exec i s = issue (fun s =>
    writeSeq (encodeWith s.params name (operand s.cmd.address) (operand s.cmd.command) (frame s.params)) s) s
  encodeNamed_eq : ∀ (p : Params) (x : Command),
    encodeNamed name p x = encodeWith p name (operand x.address) (operand x.command) (frame p)

namespace NamedEncoder

theorem nec : NamedEncoder .encNec necName firstByte (fun _ row a c => famPd row (necWord a c) 32) :=
  ⟨fun _ => rfl, fun _ _ => rfl⟩

theorem necext : NamedEncoder .encNecext necextName (fun t => hexval (trunc00 t))
    (fun _ row a c => famPd row (necextWord a c) 32) :=
  ⟨fun _ => rfl, fun _ _ => rfl⟩

theorem rc5 : NamedEncoder .encRc5 rc5Name firstByte
    (fun p row a c => famBiphase row (rc5Word p.rc5Layout a c) (rc5Bits p.rc5Layout)) :=
  ⟨fun _ => rfl, fun _ _ => rfl⟩

theorem rc6 : NamedEncoder .encRc6 rc6Name firstByte (fun _ row a c => famBiphase row (rc6Word a c) 20) :=
  ⟨fun _ => rfl, fun _ _ => rfl⟩

theorem samsung32 : NamedEncoder .encSamsung32 samsung32Name field16
    (fun _ row a c => famPd row (samsungWord a c) 32) :=
  ⟨fun _ => rfl, fun _ _ => rfl⟩

theorem sirc : NamedEncoder .encSirc sircName (fun t => (hex32 t).map bswap32)
    (fun _ row a c => famPw row (sircWord 12 a c) 12) :=
  ⟨fun _ => rfl, fun _ _ => rfl⟩

theorem sirc15 : NamedEncoder .encSirc15 sirc15Name (fun t => (hex32 t).map bswap32)
    (fun _ row a c => famPw row (sircWord 15 a c) 15) :=
  ⟨fun _ => rfl, fun _ _ => rfl⟩

theorem sirc20 : NamedEncoder .encSirc20 sirc20Name (fun t => (hex32 t).map bswap32)
    (fun _ row a c => famPw row (sircWord 20 a c) 20) :=
  ⟨fun _ => rfl, fun _ _ => rfl⟩

theorem kaseikyo : NamedEncoder .encKaseikyo kaseikyoName (fun t => (hex32 t).map bswap32)
    (fun p row a c => famPd row (kaseikyoWord p.kaseikyo a c) 48) :=
  ⟨fun _ => rfl, fun _ _ => rfl⟩

/-- Every pair of a name and its operation (R171 to R180). -/
theorem exists_of_mem {name : Text} {i : Instr}
    (h : (name, i) ∈ [("NEC".toList, Instr.encNec), ("NECext".toList, .encNecext), ("RC5".toList, .encRc5),
      ("RC6".toList, .encRc6), ("Samsung32".toList, .encSamsung32), ("SIRC".toList, .encSirc),
      ("SIRC15".toList, .encSirc15), ("SIRC20".toList, .encSirc20), ("Kaseikyo".toList, .encKaseikyo)]) :
    ∃ operand frame, NamedEncoder i name operand frame := by
  simp only [List.mem_cons, Prod.mk.injEq, List.not_mem_nil, or_false] at h
  rcases h with ⟨rfl, rfl⟩ | ⟨rfl, rfl⟩ | ⟨rfl, rfl⟩ | ⟨rfl, rfl⟩ | ⟨rfl, rfl⟩ | ⟨rfl, rfl⟩ | ⟨rfl, rfl⟩ |
    ⟨rfl, rfl⟩ | ⟨rfl, rfl⟩
  · exact ⟨_, _, nec⟩
  · exact ⟨_, _, necext⟩
  · exact ⟨_, _, rc5⟩
  · exact ⟨_, _, rc6⟩
  · exact ⟨_, _, samsung32⟩
  · exact ⟨_, _, sirc⟩
  · exact ⟨_, _, sirc15⟩
  · exact ⟨_, _, sirc20⟩
  · exact ⟨_, _, kaseikyo⟩

section
variable {i : Instr} {name : Text} {operand : Text → Option Nat}
  {frame : Params → ProtocolSpec → Nat → Nat → TimingSeq} (enc : NamedEncoder i name operand frame) {s : State}
include enc

/-- ENC.AUTO runs the encoder of a name that is a key of the table (R170). -/
theorem exec_encAuto (htype : s.cmd.type = parsedType) (hname : s.cmd.protocol = name)
    (hrow : s.params.table.lookup name ≠ none) : exec .encAuto s = exec i s := by
  subst hname
  rw [enc.exec_eq]
  have hdispatch := (encAuto_of_key htype hrow).trans (enc.encodeNamed_eq s.params s.cmd)
  exact issue_congr (congrArg (writeSeq · s) hdispatch)

variable (hfault : s.fault = false)
include hfault

/-- Without its row the encoder is not supported (R182). -/
theorem exec_of_missing (hrow : s.params.table.lookup name = none) :
    exec i s = .next { s with result := .eNotSupported, value := .none } := by
  rw [enc.exec_eq]
  exact issue_writeSeq_of_error hfault (encodeWith_of_missing hrow)

/-- A malformed operand leaves `SEQ` (R183). -/
theorem exec_of_malformed {row : ProtocolSpec} (hrow : s.params.table.lookup name = some row)
    (hoperand : operand s.cmd.address = none ∨ operand s.cmd.command = none) :
    exec i s = .next { s with result := .eMalformedHex, value := .none } := by
  rw [enc.exec_eq]
  exact issue_writeSeq_of_error hfault (encodeWith_of_malformed hrow hoperand)

theorem exec_of_operands {row : ProtocolSpec} {a c : Nat} (hrow : s.params.table.lookup name = some row)
    (ha : operand s.cmd.address = some a) (hc : operand s.cmd.command = some c) :
    exec i s = .next { s with seq := frame s.params row a c, result := .ok, value := .none } := by
  rw [enc.exec_eq]
  exact issue_writeSeq_of_ok hfault (encodeWith_of_some hrow ha hc)

end

end NamedEncoder

/-- Settles O28: each of the nine is a named encoder, and one without its row is not supported (R182). -/
theorem missingRowNotSupported : Obligations.MissingRowNotSupported := by
  intro s name i hmem hfault hrow
  obtain ⟨operand, frame, enc⟩ := NamedEncoder.exists_of_mem hmem
  exact enc.exec_of_missing hfault hrow

/-! ## Raw replay and ENC.AUTO (R170, R181) -/

theorem fromText_of_malformed {t : Text} (h : durations t = none) : fromText t = .error .eMalformedHex := by
  simp only [fromText, h]

/-- The durations of a text through both primitives, by position (45_normalizer_decode.md R252). -/
theorem fromText_of_durations {t : Text} {v : List Nat} (h : durations t = some v) :
    fromText t = .ok (coalesce (appendAll (byPosition v))) := by
  simp only [fromText, h, appendAll_eq]
  exact congrArg (fun runs => Except.ok (coalesce runs)) (positionRuns_eq_chunks v 0)

/-- Settles O26: ENC.RAW is `fromText` of `DATA`. -/
theorem rawEncoding : Obligations.RawEncoding := fun _ hfault =>
  ⟨fun _ hv => issue_writeSeq_of_ok hfault (fromText_of_durations hv),
    fun hnone => issue_writeSeq_of_error hfault (fromText_of_malformed hnone)⟩

theorem exec_encAuto_of_raw {s : State} (htype : s.cmd.type = rawType) : exec .encAuto s = exec .encRaw s :=
  issue_congr (congrArg (writeSeq · s) (encAuto_of_raw htype))

/-- Settles O27, branch by branch of the dispatch: on `TYPE` first, then on a name with a builder and a row. -/
theorem autoDispatchesOnTypeAndName : Obligations.AutoDispatchesOnTypeAndName := by
  intro s hfault
  refine ⟨fun v htype hv => ?raw, exec_encAuto_of_raw, fun hraw hparsed => ?otherType,
    fun name i hmem htype hname hrow => ?named, fun htype hunknown => ?unknown⟩
  case raw =>
    rw [exec_encAuto_of_raw htype]
    exact (rawEncoding s hfault).1 v hv
  case otherType => exact issue_writeSeq_of_error hfault (encAuto_of_other_type hraw hparsed)
  case named =>
    obtain ⟨operand, frame, enc⟩ := NamedEncoder.exists_of_mem hmem
    exact ⟨enc.exec_encAuto htype hname hrow, _, issue_eq _ s⟩
  case unknown =>
    refine issue_writeSeq_of_error hfault ?_
    by_cases hrow : s.params.table.lookup s.cmd.protocol = none
    · exact encAuto_of_missing htype hrow
    · rw [encAuto_of_key htype hrow]
      exact encodeNamed_of_unknown (hunknown.resolve_left hrow) s.params s.cmd

/-! ## Operands with a bound on their digits (30_encoding.md R104, 42_encoder_protocols.md R175) -/

theorem hex32_of_le {t : Text} (h : ndigits t ≤ 8) : hex32 t = hexval t := if_neg (Nat.not_lt.mpr h)

theorem hex32_eq_none {t : Text} (h : hexval t = none ∨ 8 < ndigits t) : hex32 t = none := by
  unfold hex32
  split
  · rfl
  · exact h.resolve_right ‹_›

/-- An operand of SIRC or Kaseikyo: byte-swapped (R104). -/
theorem swapped_of_hexval {t : Text} {v : Nat} (hv : hexval t = some v) (hdigits : ndigits t ≤ 8) :
    (hex32 t).map bswap32 = some (bswap32 v) := by
  rw [hex32_of_le hdigits, hv, Option.map_some]

theorem swapped_eq_none {t : Text} (h : hexval t = none ∨ 8 < ndigits t) : (hex32 t).map bswap32 = none := by
  rw [hex32_eq_none h, Option.map_none]

/-- The value of a Samsung32 field: one or two digits are doubled (R175). -/
def samsungField (t : Text) (v : Nat) : Nat := if ndigits t ≤ 2 then 2 ^ 8 * v + v else v

section
variable {t : Text} {v : Nat} (hv : hexval t = some v) (hdigits : ndigits t ≤ 4)
include hv hdigits

theorem field16_of_hexval : field16 t = some (samsungField t v) := by
  by_cases hshort : ndigits t ≤ 2
  · have hbyte : v < 2 ^ 8 := (hexval_lt hv).trans_le (Nat.pow_le_pow_right (n := 16) (by decide) hshort)
    simp only [field16, hv, samsungField, if_pos hshort, Nat.or_comm (v <<< 8), or_shiftLeft_eq_add v v 8 hbyte,
      Nat.add_comm v]
  · simp only [field16, hv, samsungField, if_neg hshort, if_pos hdigits]

theorem samsungField_lt : samsungField t v < 2 ^ 16 := by
  have hword : v < 2 ^ 16 := (hexval_lt hv).trans_le (Nat.pow_le_pow_right (n := 16) (by decide) hdigits)
  unfold samsungField
  split
  · next hshort =>
    have hbyte : v < 2 ^ 8 := (hexval_lt hv).trans_le (Nat.pow_le_pow_right (n := 16) (by decide) hshort)
    omega
  · exact hword

end

theorem field16_eq_none {t : Text} (h : hexval t = none ∨ 4 < ndigits t) : field16 t = none := by
  unfold field16
  split
  · rfl
  · next v hv =>
    have hlong : 4 < ndigits t := h.resolve_left (by simp [hv])
    rw [if_neg (by omega), if_neg (by omega)]

/-- The four ways in which an operand pair with a bound on its digits is malformed, by operand. -/
theorem malformed_pair {operand : Text → Option Nat} {bound : Nat} {a c : Text}
    (hnone : ∀ {t}, hexval t = none ∨ bound < ndigits t → operand t = none)
    (h : hexval a = none ∨ hexval c = none ∨ bound < ndigits a ∨ bound < ndigits c) :
    operand a = none ∨ operand c = none := by
  rcases h with h | h | h | h
  · exact .inl (hnone (.inl h))
  · exact .inr (hnone (.inl h))
  · exact .inl (hnone (.inr h))
  · exact .inr (hnone (.inr h))

/-! ## The packed words as sums (30_encoding.md R64) -/

/-- A field put above one that fits below it is added. -/
theorem shiftLeft_or_eq_add (a : Nat) {b n : Nat} (h : b < 2 ^ n) : a <<< n ||| b = 2 ^ n * a + b := by
  rw [Nat.or_comm, or_shiftLeft_eq_add b a n h, Nat.add_comm]

theorem necWord_eq {a c : Nat} (ha : a < 256) (hc : c < 256) :
    necWord a c = a + 2 ^ 8 * (255 - a) + 2 ^ 16 * c + 2 ^ 24 * (255 - c) := by
  rw [necWord, or_shiftLeft_eq_add a _ 8 (by omega), or_shiftLeft_eq_add _ c 16 (by omega),
    or_shiftLeft_eq_add _ _ 24 (by omega)]

/-- Settles O20: the operands are bytes (`firstByte_lt`), so the four bytes do not overlap (`necWord_eq`). -/
theorem necEncoding : Obligations.NecEncoding := by
  intro s row hfault hrow
  refine ⟨fun a c ha hc => ?_, NamedEncoder.nec.exec_of_malformed hfault hrow⟩
  rw [← necWord_eq (firstByte_lt ha) (firstByte_lt hc)]
  exact NamedEncoder.nec.exec_of_operands hfault hrow ha hc

/-- The low 16 bits, their bytes swapped (R104). -/
theorem bswap16_mod (v : Nat) : bswap16 (v % 2 ^ 16) = 2 ^ 8 * (v % 2 ^ 8) + v / 2 ^ 8 % 2 ^ 8 := by
  have hbytes : v % 2 ^ 16 = 2 ^ 8 * (v / 2 ^ 8 % 2 ^ 8) + v % 2 ^ 8 := by omega
  rw [hbytes, bswap16_bytes (by omega) (by omega)]

theorem necextWord_eq (a c : Nat) : necextWord a c =
    bitrev 16 (2 ^ 8 * (a % 2 ^ 8) + a / 2 ^ 8 % 2 ^ 8) +
      2 ^ 16 * bitrev 16 (2 ^ 8 * (c % 2 ^ 8) + c / 2 ^ 8 % 2 ^ 8) := by
  rw [necextWord, necextField, necextField, bswap16_mod, bswap16_mod, or_shiftLeft_eq_add _ _ 16 (bitrev_lt 16 _)]

/-- Settles O21: each field is 16 bits (`necextWord_eq`). -/
theorem necextEncoding : Obligations.NecextEncoding := by
  intro s row hfault hrow
  refine ⟨fun a c ha hc => ?_, NamedEncoder.necext.exec_of_malformed hfault hrow⟩
  rw [← necextWord_eq]
  exact NamedEncoder.necext.exec_of_operands hfault hrow ha hc

theorem rc5Field_le (c : Nat) : rc5Field c ≤ 1 := by
  unfold rc5Field
  split <;> decide

theorem two_pow_mul_rc5Field (c n : Nat) : 2 ^ n * rc5Field c = if c ≤ 0x3F then 2 ^ n else 0 := by
  unfold rc5Field
  split
  · exact Nat.mul_one _
  · exact Nat.mul_zero _

theorem rc5Word_listed15 (a c : Nat) : rc5Word .listed15 a c =
    2 ^ 14 + 2 ^ 13 + (if c ≤ 0x3F then 2 ^ 11 else 0) + 2 ^ 6 * (a % 32) + c % 64 := by
  have hfield := rc5Field_le c
  rw [← two_pow_mul_rc5Field]
  simp only [rc5Word, Nat.or_assoc, Nat.zero_shiftLeft, Nat.zero_or]
  rw [shiftLeft_or_eq_add (a % 32) (n := 6) (by omega), shiftLeft_or_eq_add (rc5Field c) (n := 11) (by omega),
    shiftLeft_or_eq_add 1 (n := 13) (by omega), shiftLeft_or_eq_add 1 (n := 14) (by omega)]
  omega

theorem rc5Word_std14 (a c : Nat) : rc5Word .std14 a c =
    2 ^ 13 + (if c ≤ 0x3F then 2 ^ 12 else 0) + 2 ^ 6 * (a % 32) + c % 64 := by
  have hfield := rc5Field_le c
  rw [← two_pow_mul_rc5Field]
  simp only [rc5Word, Nat.or_assoc, Nat.zero_shiftLeft, Nat.zero_or]
  rw [shiftLeft_or_eq_add (a % 32) (n := 6) (by omega), shiftLeft_or_eq_add (rc5Field c) (n := 12) (by omega),
    shiftLeft_or_eq_add 1 (n := 13) (by omega)]
  omega

theorem rc6Word_eq (a : Nat) {c : Nat} (hc : c < 256) : rc6Word a c = 2 ^ 8 * a + c := by
  simp only [rc6Word, Nat.zero_shiftLeft, Nat.zero_or]
  exact shiftLeft_or_eq_add a hc

/-- Settles O22: the fields of each frame do not overlap (`rc5Word_listed15`, `rc5Word_std14`, `rc6Word_eq`). -/
theorem rc5AndRc6Encoding : Obligations.Rc5AndRc6Encoding := by
  refine ⟨fun s row hfault hrow => ⟨fun a c ha hc => ?rc5, NamedEncoder.rc5.exec_of_malformed hfault hrow⟩,
    fun s row hfault hrow => ⟨fun a c ha hc => ?rc6, NamedEncoder.rc6.exec_of_malformed hfault hrow⟩⟩
  case rc5 =>
    have hframe := NamedEncoder.rc5.exec_of_operands hfault hrow ha hc
    refine ⟨fun hlayout => ?_, fun hlayout => ?_⟩ <;> rw [hlayout] at hframe
    · rwa [rc5Word_listed15] at hframe
    · rwa [rc5Word_std14] at hframe
  case rc6 =>
    rw [← rc6Word_eq a (firstByte_lt hc)]
    exact NamedEncoder.rc6.exec_of_operands hfault hrow ha hc

/-- Settles O23: a field of at most four digits is below `2^16` (`samsungField_lt`), so the two do not overlap. -/
theorem samsung32Encoding : Obligations.Samsung32Encoding := by
  intro s row hfault hrow
  refine ⟨fun a c ha hc hda hdc => ?_,
    fun h => NamedEncoder.samsung32.exec_of_malformed hfault hrow (malformed_pair field16_eq_none h)⟩
  have hframe := NamedEncoder.samsung32.exec_of_operands hfault hrow
    (field16_of_hexval ha hda) (field16_of_hexval hc hdc)
  rwa [samsungWord, or_shiftLeft_eq_add _ _ 16 (samsungField_lt ha hda)] at hframe

theorem sircWord_eq (n a32 c32 : Nat) :
    sircWord n a32 c32 = bitrev n (2 ^ 7 * (a32 % 2 ^ (n - 7)) + c32 % 2 ^ 7) := by
  have hcmd : c32 % 128 < 2 ^ 7 := Nat.mod_lt _ (by decide)
  exact congrArg (bitrev n) (shiftLeft_or_eq_add _ hcmd)

/-- The three variants differ in their name and their bit count (R176 to R179). -/
theorem NamedEncoder.exists_sirc_of_mem {i : Instr} {name : Text} {n : Nat}
    (h : (i, name, n) ∈ [(Instr.encSirc, "SIRC".toList, 12), (.encSirc15, "SIRC15".toList, 15),
      (.encSirc20, "SIRC20".toList, 20)]) :
    NamedEncoder i name (fun t => (hex32 t).map bswap32) (fun _ row a c => famPw row (sircWord n a c) n) := by
  simp only [List.mem_cons, Prod.mk.injEq, List.not_mem_nil, or_false] at h
  rcases h with ⟨rfl, rfl, rfl⟩ | ⟨rfl, rfl, rfl⟩ | ⟨rfl, rfl, rfl⟩
  · exact sirc
  · exact sirc15
  · exact sirc20

/-- Settles O24: one builder for the three variants, the command in the low seven bits (`sircWord_eq`). -/
theorem sircEncoding : Obligations.SircEncoding := by
  intro s row i name n hmem hfault hrow
  have enc := NamedEncoder.exists_sirc_of_mem hmem
  refine ⟨fun a c ha hc hda hdc => ?_,
    fun h => enc.exec_of_malformed hfault hrow (malformed_pair swapped_eq_none h)⟩
  rw [← sircWord_eq]
  exact enc.exec_of_operands hfault hrow (swapped_of_hexval ha hda) (swapped_of_hexval hc hdc)

/-! ## The Kaseikyo word (R180) -/

/-- The six bytes laid over each other from the lowest up. -/
theorem kaseikyoJoin_eq {b0 b1 b2 b3 b4 : Nat} (h0 : b0 < 256) (h1 : b1 < 256) (h2 : b2 < 256) (h3 : b3 < 256)
    (h4 : b4 < 256) (b5 : Nat) : kaseikyoJoin b0 b1 b2 b3 b4 b5 =
      b0 + 2 ^ 8 * b1 + 2 ^ 16 * b2 + 2 ^ 24 * b3 + 2 ^ 32 * b4 + 2 ^ 40 * b5 := by
  rw [kaseikyoJoin, or_shiftLeft_eq_add b0 b1 8 h0, or_shiftLeft_eq_add _ b2 16 (by omega),
    or_shiftLeft_eq_add _ b3 24 (by omega), or_shiftLeft_eq_add _ b4 32 (by omega),
    or_shiftLeft_eq_add _ b5 40 (by omega)]

/-- The parity of two bytes is one nibble. -/
theorem kaseikyoParity_lt {b0 b1 : Nat} (h0 : b0 < 256) (h1 : b1 < 256) : kaseikyoParity b0 b1 < 2 ^ 4 := by
  have hxor : b0 ^^^ b1 < 2 ^ 8 := Nat.xor_lt_two_pow h0 h1
  rw [kaseikyoParity, Nat.shiftRight_eq_div_pow]
  exact Nat.xor_lt_two_pow (by omega) (by omega)

/-- The six bytes under the default field positions, before the reversal. -/
theorem kaseikyoBytes_default (a32 c32 : Nat) {vendor b0 b1 b2 b3 b4 : Nat} (hvendor : vendor = a32 / 2 ^ 8 % 2 ^ 16)
    (hb0 : b0 = vendor % 256) (hb1 : b1 = vendor / 256)
    (hb2 : b2 = ((b0 ^^^ b1) % 16 ^^^ (b0 ^^^ b1) / 16) + 16 * (a32 / 2 ^ 4 % 16))
    (hb3 : b3 = 16 * (c32 % 16) + a32 % 16) (hb4 : b4 = 64 * (a32 / 2 ^ 24 % 4) + c32 % 2 ^ 10 / 16) :
    kaseikyoBytes defaultKaseikyo a32 c32 =
      b0 + 2 ^ 8 * b1 + 2 ^ 16 * b2 + 2 ^ 24 * b3 + 2 ^ 32 * b4 + 2 ^ 40 * (b2 ^^^ b3 ^^^ b4) := by
  have h0 : b0 < 256 := by omega
  have h1 : b1 < 256 := by omega
  have hparity := kaseikyoParity_lt h0 h1
  have hb2' : b2 = kaseikyoParity b0 b1 + 2 ^ 4 * (a32 / 2 ^ 4 % 16) := by
    rw [kaseikyoParity, Nat.shiftRight_eq_div_pow]
    exact hb2
  have hbyte2 : (kaseikyoParity b0 b1 ||| (a32 / 2 ^ 4 % 16) <<< 4) % 256 = b2 := by
    rw [or_shiftLeft_eq_add _ _ 4 hparity, ← hb2']
    omega
  have hbyte3 : ((c32 % 2 ^ 10 % 16) <<< 4 ||| a32 % 16) % 256 = b3 := by
    rw [shiftLeft_or_eq_add _ (by omega)]
    omega
  have hbyte4 : ((a32 / 2 ^ 24 % 4) <<< 6 ||| c32 % 2 ^ 10 / 2 ^ 4) % 256 = b4 := by
    rw [shiftLeft_or_eq_add _ (by omega)]
    omega
  have hbyte1 : vendor / 2 ^ 8 = b1 := hb1.symm
  simp only [kaseikyoBytes, defaultKaseikyo, Nat.shiftRight_eq_div_pow, Nat.shiftLeft_zero, Nat.pow_zero, Nat.div_one,
    ← hvendor, ← hb0, hbyte1, hbyte2, hbyte3, hbyte4]
  exact kaseikyoJoin_eq h0 h1 (by omega) (by omega) (by omega) _

/-- Settles O25: the frame holds the reversed six bytes (`kaseikyoBytes_default`); under other positions it holds
whatever word they give. -/
theorem kaseikyoEncoding : Obligations.KaseikyoEncoding := by
  intro s row hfault hrow
  refine ⟨fun a c ha hc hda hdc => ?_,
    fun h => NamedEncoder.kaseikyo.exec_of_malformed hfault hrow (malformed_pair swapped_eq_none h)⟩
  have hframe := NamedEncoder.kaseikyo.exec_of_operands hfault hrow
    (swapped_of_hexval ha hda) (swapped_of_hexval hc hdc)
  refine ⟨⟨_, hframe⟩, ?_⟩
  rintro hdefault _ _ vendor b0 b1 b2 b3 b4 rfl rfl hvendor hb0 hb1 hb2 hb3 hb4
  rwa [hdefault, kaseikyoWord, kaseikyoBytes_default _ _ hvendor hb0 hb1 hb2 hb3 hb4] at hframe

end Sys2Proof.Machine
end

section
/-! PROOFS. Transmit: the packer (O35), the carrier configured by difference (O32), and one send with its wait (O34,
O36). -/

namespace Sys2Proof.Machine

/-! ## The packer (43_transmit.md R201, R202) -/

/-- A pulse in range is one run (40_primitives.md R130). -/
theorem chunks_of_range {d : Nat} (p : Polarity) (h : 1 ≤ d ∧ d ≤ 65535) : chunks p d = [{ pol := p, dur := d }] := by
  rw [chunks_eq]
  rcases h.2.eq_or_lt with rfl | hlt
  · rfl
  · rw [Nat.div_eq_of_lt hlt, Nat.mod_eq_of_lt hlt, if_neg (by omega)]
    rfl

theorem appendAll_of_range {calls : List (Polarity × Nat)} (h : ∀ e ∈ calls, 1 ≤ e.2 ∧ e.2 ≤ 65535) :
    appendAll calls = calls.map (fun e => { pol := e.1, dur := e.2 }) := by
  rw [appendAll_eq, List.flatMap_congr fun e he => chunks_of_range e.1 (h e he)]
  exact List.map_eq_flatMap.symm

/-- TX.SEND packs the frame that the statements name. -/
theorem pack_expand (q : List Nat) : pack (expand q) = packedFrame q := by
  rw [packedFrame, appendAll_eq]
  exact congrArg pack (positionRuns_eq_chunks q 0)

theorem pack_length : ∀ runs : List Run, (pack runs).length = (runs.length + 1) / 2
  | [] => rfl
  | [_] => by simp [pack]
  | a :: b :: rest => by
    rw [pack, List.length_cons, pack_length rest, List.length_cons, List.length_cons]
    omega

theorem levelOf_eq_decide (p : Polarity) : levelOf p = decide (p = .mark) := by
  cases p <;> rfl

/-- One record of two runs in range holds both as they are, in order. -/
theorem pairsOf_symbolOf_cons {a b : Run} (ha : a.dur ≤ 65535) (hb : b.dur ≤ 65535) (rest : List Symbol) :
    pairsOf (symbolOf a b :: rest) =
      (decide (a.pol = .mark), a.dur) :: (decide (b.pol = .mark), b.dur) :: pairsOf rest := by
  have fits {d : Nat} (h : d ≤ 65535) : (BitVec.ofNat 16 d).toNat = d := by
    rw [BitVec.toNat_ofNat]
    omega
  simp [pairsOf, symbolOf, fits ha, fits hb, levelOf_eq_decide]

/-- PACK holds the runs in order, an odd final run with a 1 microsecond idle (R202). -/
theorem pairsOf_pack : ∀ runs : List Run, (∀ r ∈ runs, r.dur ≤ 65535) →
    pairsOf (pack runs) =
      runs.map (fun r => (decide (r.pol = .mark), r.dur)) ++ (if runs.length % 2 = 1 then [(false, 1)] else [])
  | [], _ => rfl
  | [_], h => pairsOf_symbolOf_cons (h _ List.mem_cons_self) (by decide) []
  | a :: b :: rest, h => by
    obtain ⟨ha, hb, hrest⟩ : a.dur ≤ 65535 ∧ b.dur ≤ 65535 ∧ ∀ r ∈ rest, r.dur ≤ 65535 := by simpa using h
    rw [pack, pairsOf_symbolOf_cons ha hb, pairsOf_pack rest hrest]
    simp [Nat.add_mod_right rest.length 2]

theorem mem_byPosition {q : List Nat} {e : Polarity × Nat} (h : e ∈ byPosition q) : e.2 ∈ q := by
  obtain ⟨x, hx, rfl⟩ := List.mem_map.mp h
  exact List.fst_mem_of_mem_zipIdx hx

theorem parity_eq_mark_iff (k : Nat) : parity k = .mark ↔ k % 2 = 0 := by
  simp [parity]

/-- Settles O35: each element of a timing sequence is one run (`appendAll_of_range`), and PACK holds the runs
(`pairsOf_pack`). -/
theorem packedFrameIsTheSequence : Obligations.PackedFrameIsTheSequence := by
  refine ⟨fun q hq => ?frame, fun runs hrange => ⟨pairsOf_pack runs fun r hr => (hrange r hr).2, pack_length runs⟩⟩
  case frame =>
    obtain ⟨heven, hrange⟩ := (timingSeqWf_iff q).mp hq
    have runs := appendAll_of_range fun e he => hrange e.2 (mem_byPosition (q := q) he)
    rw [packedFrame, runs, pairsOf_pack]
    · simp [byPosition, framePairs, heven, parity_eq_mark_iff]
    · intro r hr
      obtain ⟨e, he, rfl⟩ := List.mem_map.mp hr
      exact (hrange e.2 (mem_byPosition he)).2

/-! ## An operation of a block without a fault (60_exceptions.md R309) -/

theorem issue_of_usable (body : State → Ended) {s : State} (hfault : s.fault = false) :
    issue body s = .next (finish (body s)) := by
  rw [issue_eq, operate_of_usable _ hfault]

/-! ## The carrier by difference (43_transmit.md R200) -/

/-- The configuration is the one asked for, and the trace tells whether it is another one than before. -/
theorem txConfigure_eq (c : TxConfig) (s : State) :
    txConfigure c s = { s with tx := { s.tx with
      cfg := some c, trace := s.tx.trace ++ (if s.tx.cfg = some c then [] else [.config c]) } } := by
  rcases txConfigure_cases c s with ⟨h, heq⟩ | ⟨h, heq⟩
  · rw [heq, if_pos h, List.append_nil, ← h]
  · rw [heq, if_neg h]

theorem txEnsure_of_alloc {s : State} (halloc : s.tx.alloc = true) (c : TxConfig) :
    txEnsure c s = done (txConfigure c s) := if_pos halloc

theorem txEnsure_of_granted {s : State} (halloc : s.tx.alloc = false) (hgranted : (drawAlloc s).1 = true)
    (c : TxConfig) :
    txEnsure c s = done (txConfigure c { s with env := (drawAlloc s).2.env, tx := { s.tx with alloc := true } }) := by
  simp only [txEnsure, halloc, hgranted]
  rfl

theorem txEnsure_of_refused {s : State} (halloc : s.tx.alloc = false) (hrefused : (drawAlloc s).1 = false)
    (c : TxConfig) : txEnsure c s = enterFault (drawAlloc s).2 := by
  simp only [txEnsure, halloc, hrefused]
  rfl

/-- TX.ENSURE without a fault leaves the channel allocated and configured, and has written the transmit side and the
draws only. -/
theorem txEnsure_of_ok {c : TxConfig} {s : State} (h : (txEnsure c s).code = .ok) :
    ∃ t, txEnsure c s = done t ∧ t.tx.alloc = true ∧ t.tx.cfg = some c ∧ t.fault = s.fault ∧ t.args = s.args := by
  rcases txEnsure_cases c s with ⟨halloc, heq⟩ | ⟨_, _, heq⟩ | ⟨_, _, heq⟩
  · exact ⟨_, heq, by simp [txConfigure_eq, halloc]⟩
  · exact ⟨_, heq, by simp [txConfigure_eq]⟩
  · rw [heq] at h
    cases h

theorem exec_txEnsure {s : State} (hfault : s.fault = false) :
    exec .txEnsure s = .next (finish (txEnsure (argCarrier s.args) s)) :=
  issue_of_usable (fun s => txEnsure (argCarrier s.args) s) hfault

/-- On an allocated channel with this configuration TX.ENSURE writes `RESULT` and the value port only. -/
theorem exec_txEnsure_of_configured {s : State} (hfault : s.fault = false) (halloc : s.tx.alloc = true)
    (hcfg : s.tx.cfg = some (argCarrier s.args)) :
    exec .txEnsure s = .next { s with result := .ok, value := .none } := by
  rw [exec_txEnsure hfault, txEnsure_of_alloc halloc, txConfigure, if_pos hcfg]
  rfl

/-- Settles O32: the three ways of TX.ENSURE; a call that succeeded leaves the channel allocated and configured
(`txEnsure_of_ok`), so an equal call finds nothing to do. -/
theorem ensureConfiguresByDifference : Obligations.EnsureConfiguresByDifference := by
  rintro s c hfault rfl
  refine ⟨exec_txEnsure_of_configured hfault, fun halloc hcfg => ?differs, fun halloc hgranted => ?granted,
    fun halloc hrefused => ?refused, fun t ht hok => ?again⟩
  case differs =>
    rw [exec_txEnsure hfault, txEnsure_of_alloc halloc, txConfigure]
    exact congrArg _ (congrArg (fun u => finish (done u)) (if_neg hcfg))
  case granted =>
    refine ⟨_, exec_txEnsure hfault, ?_⟩
    rw [txEnsure_of_granted halloc hgranted, txConfigure_eq]
    exact ⟨rfl, rfl, rfl, rfl, rfl⟩
  case refused =>
    rw [exec_txEnsure hfault, txEnsure_of_refused halloc hrefused]
    rfl
  case again =>
    rw [exec_txEnsure hfault] at ht
    cases ht
    obtain ⟨u, hu, halloc, hcfg, hkept, hargs⟩ := txEnsure_of_ok hok
    rw [hu]
    refine exec_txEnsure_of_configured (s := finish (done u)) (hkept.trans hfault) halloc (hcfg.trans ?_)
    exact congrArg (some ∘ argCarrier) hargs.symm

/-! ## The channel before a request (43_transmit.md R200, R207) -/

/-- The draws after TX.ENSURE: an unallocated channel takes one (R200). -/
def envEnsured (s : State) : Env := if s.tx.alloc then s.env else (drawAlloc s).2.env

/-- The state in which TX.SEND makes its request: a frame in flight has ended, the channel is allocated and
configured. -/
def txReady (c : TxConfig) (s : State) : State :=
  { s with
    env := envEnsured s
    tx := { alloc := true, busy := false, cfg := some c, buf := s.tx.buf,
            played := if s.tx.busy then 0 else s.tx.played,
            level := if s.tx.busy then .idleLevel else s.tx.level,
            trace := traceBefore s.tx c } }

theorem txDrain_eq (s : State) :
    txDrain s = { s with tx := { s.tx with
      busy := false
      played := if s.tx.busy then 0 else s.tx.played
      level := if s.tx.busy then .idleLevel else s.tx.level
      trace := s.tx.trace ++ (if s.tx.busy then [.frame (pairsOf s.tx.buf)] else []) } } := by
  unfold txDrain
  cases hbusy : s.tx.busy
  · simp only [Bool.false_eq_true, if_false, List.append_nil]
    rw [← hbusy]
  · simp [txComplete_eq]

theorem txEnsure_txDrain {s : State} (hgrant : s.tx.alloc = true ∨ (drawAlloc s).1 = true) (c : TxConfig) :
    txEnsure c (txDrain s) = done (txReady c s) := by
  have drained : (txDrain s).tx.alloc = s.tx.alloc := by rw [txDrain_eq]
  cases halloc : s.tx.alloc
  · have hgranted : (drawAlloc (txDrain s)).1 = true := by
      rw [txDrain_eq]
      exact hgrant.resolve_left (by simp [halloc])
    rw [txEnsure_of_granted (drained.trans halloc) hgranted, txConfigure_eq, txDrain_eq]
    simp [txReady, envEnsured, halloc, traceBefore, drawAlloc]
  · rw [txEnsure_of_alloc (drained.trans halloc), txConfigure_eq, txDrain_eq]
    simp [txReady, envEnsured, halloc, traceBefore]

/-- TX.SEND of a nonempty list on a channel allocated or granted is the request of its packed frame (R201). -/
theorem txSend_eq_request {s : State} {q : List Nat} (hgrant : s.tx.alloc = true ∨ (drawAlloc s).1 = true)
    (hq : q ≠ []) (c : TxConfig) : txSend q c s = txRequest (packedFrame q) (txReady c s) := by
  rcases txSend_cases q c s with ⟨hnil, _⟩ | ⟨_, hfaulted, _⟩ | ⟨_, _, heq⟩
  · exact absurd hnil hq
  · rw [txEnsure_txDrain hgrant] at hfaulted
    cases hfaulted
  · rw [heq, txEnsure_txDrain hgrant, pack_expand, done_st]

/-! ## The request and its wait (43_transmit.md R201, R204, R207) -/

/-- The state after a frame has been requested and has completed. -/
def framePlayed (syms : List Symbol) (s : State) : State :=
  { s with tx := { s.tx with
    busy := false, buf := syms, played := 0, level := .idleLevel, trace := s.tx.trace ++ [.frame (pairsOf syms)] } }

/-- The state in which the wait has elapsed after `n` pairs, or the whole frame if it is shorter; before the first pair
the level is the old one (log 19). -/
def frameInFlight (syms : List Symbol) (n : Nat) (s : State) : State :=
  { s with tx := { s.tx with
    busy := true, buf := syms, played := min n (pairsOf syms).length
    level := (((pairsOf syms).take n).getLast?.map (fun p => playLevel p.1)).getD s.tx.level } }

section
variable {s : State} (syms : List Symbol)

theorem txRequest_of_unbounded (hwait : s.maxWait = none) : txRequest syms s = done (framePlayed syms s) := by
  simp only [txRequest, hwait, txComplete_eq, framePlayed]

variable {m : Nat} (hwait : s.maxWait = some m)
include hwait

theorem txRequest_of_completed (hdraw : (drawWait s).1 = false) :
    txRequest syms s = done (framePlayed syms (drawWait s).2) := by
  obtain ⟨s1, rfl, ⟨hnone, _⟩ | ⟨_, _, heq⟩ | ⟨_, hexpired, _⟩⟩ := txRequest_cases syms s
  · simp [hwait] at hnone
  · rw [heq, txComplete_eq]
    rfl
  · exact absurd (hdraw.symm.trans hexpired) nofun

theorem txRequest_of_expired (hdraw : (drawWait s).1 = true) :
    txRequest syms s = raise .eTimeout
      (frameInFlight syms (drawPlays (drawWait s).2).1 (drawPlays (drawWait s).2).2) := by
  obtain ⟨s1, rfl, ⟨hnone, _⟩ | ⟨_, hcompleted, _⟩ | ⟨_, _, n, rfl, heq⟩⟩ := txRequest_cases syms s
  · simp [hwait] at hnone
  · exact absurd (hdraw.symm.trans hcompleted) nofun
  · rw [heq]
    simp only [playPairs_eq, unplayed, frameInFlight, drawPlays_tx, drawWait_tx, List.drop_zero, List.length_take,
      Nat.zero_add]
    rfl

end

/-! ## One send (43_transmit.md R201 to R207) -/

theorem exec_txSend {s : State} (hfault : s.fault = false) :
    exec .txSend s = .next (finish (txSend (s.args.seq.getD s.seq) (argCarrier s.args) s)) :=
  issue_of_usable (fun s => txSend (s.args.seq.getD s.seq) (argCarrier s.args) s) hfault

/-- Settles O34: the request (`txSend_eq_request`) completes (`txRequest_of_unbounded`). -/
theorem sendPlaysTheFrame : Obligations.SendPlaysTheFrame := by
  rintro s q c hfault hwait hgrant hseq hq rfl
  have harg : s.args.seq.getD s.seq = q := by
    rcases hseq with h | ⟨h, hs⟩
    · rw [h, Option.getD_some]
    · rw [h, Option.getD_none, hs]
  rw [exec_txSend hfault, harg, txSend_eq_request hgrant hq, txRequest_of_unbounded (s := txReady _ s) _ hwait]
  rfl

/-! ## The engine's later steps and the pin (43_transmit.md R203, R204, R206) -/

/-- The completion of a frame in flight, as an event of the agenda. -/
theorem step_txComplete {t : State} {rest : List Event} (hfault : t.fault = false) (hport : t.port = none)
    (hbusy : t.tx.busy = true) (hagenda : t.agenda = .txComplete :: rest) :
    step t = .next (txComplete { t with agenda := rest }) := by
  rw [step_of_agenda_cons hport hagenda]
  exact congrArg _ (if_pos ⟨hbusy, hfault⟩)

theorem step_txPlay {t : State} {rest : List Event} (hfault : t.fault = false) (hport : t.port = none)
    (hbusy : t.tx.busy = true) (hagenda : t.agenda = .txPlay :: rest) :
    step t = .next (txPlayNext { t with agenda := rest }) := by
  rw [step_of_agenda_cons hport hagenda]
  exact congrArg _ (if_pos ⟨hbusy, hfault⟩)

/-- The next pair left is the one that is played. -/
theorem txPlayNext_of_unplayed {s : State} {pair : Bool × Nat} {more : List (Bool × Nat)}
    (h : unplayed s.tx = pair :: more) :
    txPlayNext s = { s with tx := { s.tx with played := s.tx.played + 1, level := playLevel pair.1 } } := by
  rw [txPlayNext, h]
  rfl

theorem physicalPin_of_cfg {tx : TxUnit} {c : TxConfig} (h : tx.cfg = some c) :
    physicalPin tx = pinDrive c tx.level := by
  rw [physicalPin, h, Option.getD_some]

/-- Settles O36: the two ways a wait ends (`txRequest_of_expired`, `txRequest_of_completed`), the engine's two events,
and the pin of each level. -/
theorem finiteWaitMayTimeOut : Obligations.FiniteWaitMayTimeOut := by
  refine ⟨?send, fun t rest hfault hport hbusy => ⟨fun h => ?completes, fun pair more h hleft => ?plays⟩, ?pin⟩
  case send =>
    rintro s q c m w n hfault hwait hgrant hseq hq rfl rfl hn
    have sends : exec .txSend s = .next (finish (txRequest (packedFrame q) (txReady (argCarrier s.args) s))) := by
      rw [exec_txSend hfault, hseq, txSend_eq_request hgrant hq]
    refine ⟨fun hdraw => ?expires, fun hdraw => ?ends⟩
    case expires =>
      have plays : drawPlays (drawWait (txReady (argCarrier s.args) s)).2 =
          (n.1, { txReady (argCarrier s.args) s with env := n.2.env }) := by
        rw [hn]
        rfl
      rw [sends, txRequest_of_expired (s := txReady (argCarrier s.args) s) _ hwait hdraw, plays]
      cases hlast : ((pairsOf (packedFrame q)).take n.1).getLast? <;> simp only [frameInFlight, hlast] <;> rfl
    case ends =>
      rw [sends, txRequest_of_completed (s := txReady (argCarrier s.args) s) _ hwait hdraw]
      rfl
  case completes => rw [step_txComplete hfault hport hbusy h, txComplete_eq]
  case plays =>
    rw [step_txPlay hfault hport hbusy h, txPlayNext_of_unplayed (s := { t with agenda := rest }) hleft]
    rfl
  case pin =>
    intro tx c hcfg
    rw [physicalPin_of_cfg hcfg]
    refine ⟨?_, ?_, ?_⟩ <;> rintro h <;> rw [h] <;> rfl

end Sys2Proof.Machine
end

section
/-! PROOFS. The command send: its frames and the pin after them (O38), and the pin whatever the result (O39). -/

namespace Sys2Proof.Machine

/-! ## The pin after the last invocation (43_transmit.md R204 to R206) -/

section
variable {s : State}

theorem emitterOff_of_idle (hbusy : s.tx.busy = false) : emitterOff s = driveLow s := by
  simp [emitterOff, txMayComplete, hbusy]

theorem emitterOff_of_completes (hbusy : s.tx.busy = true) (hdraw : (drawEngine s).1 = true) :
    emitterOff s = { s with
      env := (drawEngine s).2.env
      tx := { s.tx with
        busy := false, played := 0, level := .low, trace := s.tx.trace ++ [.frame (pairsOf s.tx.buf), .pinLow] } } := by
  simp [emitterOff, txMayComplete, hbusy, hdraw, txComplete_eq, driveLow]

theorem emitterOff_of_stays (hbusy : s.tx.busy = true) (hdraw : (drawEngine s).1 = false) :
    emitterOff s = driveLow (drawEngine s).2 := by
  simp [emitterOff, txMayComplete, hbusy, hdraw]

end

@[simp] theorem emitterOff_tx_level (s : State) : (emitterOff s).tx.level = .low := driveLow_tx_level _

theorem emitterOff_trace_getLast (s : State) : (emitterOff s).tx.trace.getLast? = some .pinLow := by
  rw [emitterOff, driveLow_tx_trace, List.getLast?_concat]

/-! ## The repeat loop (43_transmit.md R205) -/

theorem sendLoop_zero (q : List Nat) (c : TxConfig) (first : Option ResultCode) (s : State) :
    sendLoop q c 0 first s = raise (first.getD .ok) (emitterOff s) := by
  cases first <;> rfl

theorem sendLoop_succ_of_done {q : List Nat} {c : TxConfig} {s t : State} (h : txSend q c s = done t) (n : Nat)
    (first : Option ResultCode) : sendLoop q c (n + 1) first s = sendLoop q c n first t := by
  simp only [sendLoop, h]
  rfl

/-- A failed invocation does not end the loop; the first failure is kept. -/
theorem sendLoop_succ_of_failed {q : List Nat} {c : TxConfig} {s t : State} {code : ResultCode}
    (h : txSend q c s = raise code t) (hcode : resultKind code = .failure) (n : Nat) (first : Option ResultCode) :
    sendLoop q c (n + 1) first s = sendLoop q c n (first.or (some code)) t := by
  simp only [sendLoop, h, Ended.faulted, Ended.failed, raise, hcode]
  cases first <;> rfl

theorem sendLoop_succ_of_faulted {q : List Nat} {c : TxConfig} {s : State} (h : (txSend q c s).faulted = true) (n : Nat)
    (first : Option ResultCode) : sendLoop q c (n + 1) first s = txSend q c s := by
  simp only [sendLoop, h, if_true]

theorem exec_txSendcmd {s : State} (hfault : s.fault = false) : exec .txSendcmd s = .next (finish (txSendcmd s)) :=
  issue_of_usable txSendcmd hfault

theorem txSendcmd_of_error {s : State} {code : ResultCode} (h : encAuto s.params s.cmd = .error code) :
    txSendcmd s = raise code (emitterOff s) := by
  simp only [txSendcmd, h]

theorem txSendcmd_of_ok {s : State} {q : TimingSeq} (h : encAuto s.params s.cmd = .ok q) :
    txSendcmd s = sendLoop q (carrierOf s.params s.cmd) (s.repeats + 1) none { s with seq := q } := by
  simp only [txSendcmd, h]

/-! ## Nothing to send, and the pin after every command send (43_transmit.md R205, R206) -/

/-- With an empty sequence every invocation fails and changes nothing. -/
theorem sendLoop_nil (c : TxConfig) (n : Nat) (first : Option ResultCode) (s : State) :
    sendLoop [] c (n + 1) first s = raise (first.getD .eEmptySeq) (emitterOff s) := by
  induction n generalizing first with
  | zero =>
    rw [sendLoop_succ_of_failed (code := .eEmptySeq) rfl rfl, sendLoop_zero]
    cases first <;> rfl
  | succ n ih =>
    rw [sendLoop_succ_of_failed (code := .eEmptySeq) rfl rfl, ih]
    cases first <;> rfl

/-- A send that faults has set `FAULT` (60_exceptions.md R306). -/
theorem txSend_fault_of_faulted {q : List Nat} {c : TxConfig} {s : State} (h : (txSend q c s).faulted = true) :
    (txSend q c s).st.fault = true := by
  rcases txSend_cases q c s with ⟨_, heq⟩ | ⟨_, hfaulted, heq⟩ | ⟨_, _, heq⟩ <;> rw [heq] at h ⊢
  · cases h
  · rcases txEnsure_cases c (txDrain s) with ⟨_, he⟩ | ⟨_, _, he⟩ | ⟨_, _, he⟩ <;> rw [he] at h ⊢
    · cases h
    · cases h
    · rfl
  · obtain ⟨_, _, ⟨_, hr⟩ | ⟨_, _, hr⟩ | ⟨_, _, _, _, hr⟩⟩ :=
      txRequest_cases (pack (expand q)) (txEnsure c (txDrain s)).st <;> rw [hr] at h <;> cases h

/-- The repeat loop ends with a fault or with the emitter off (R205). -/
theorem sendLoop_fault_or_off (q : List Nat) (c : TxConfig) (n : Nat) (first : Option ResultCode) (s : State) :
    (sendLoop q c n first s).st.fault = true ∨ ∃ t, (sendLoop q c n first s).st = emitterOff t := by
  induction n generalizing first s with
  | zero => exact .inr ⟨s, by rw [sendLoop_zero, raise_st]⟩
  | succ n ih =>
    cases hfaulted : (txSend q c s).faulted
    · rw [sendLoop]
      simp only [hfaulted, Bool.false_eq_true, if_false]
      exact ih _ _
    · rw [sendLoop_succ_of_faulted hfaulted]
      exact .inl (txSend_fault_of_faulted hfaulted)

theorem txSendcmd_fault_or_off (s : State) :
    (txSendcmd s).st.fault = true ∨ ∃ t, (txSendcmd s).st = emitterOff t := by
  cases h : encAuto s.params s.cmd with
  | error code => exact .inr ⟨s, by rw [txSendcmd_of_error h, raise_st]⟩
  | ok q =>
    rw [txSendcmd_of_ok h]
    exact sendLoop_fault_or_off ..

/-- Settles O39: with nothing to send the command send is the end of one, `emitterOff`; and every command send without
a fault ends so (`txSendcmd_fault_or_off`). -/
theorem sendcmdLeavesEmitterOff : Obligations.SendcmdLeavesEmitterOff := by
  intro s hfault
  refine ⟨fun code q hnothing => ?nothing, _, exec_txSendcmd hfault, fun hkept => ?off⟩
  case nothing =>
    have ends : exec .txSendcmd s = .next (finish (raise code (emitterOff { s with seq := q }))) := by
      rw [exec_txSendcmd hfault]
      rcases hnothing with ⟨herror, rfl⟩ | ⟨hempty, rfl, rfl⟩
      · rw [txSendcmd_of_error herror]
      · rw [txSendcmd_of_ok hempty, sendLoop_nil]
        rfl
    refine ⟨fun hbusy => ?_, fun hbusy hdraw => ?_, fun hbusy hdraw => ?_⟩ <;> rw [ends]
    · rw [emitterOff_of_idle (s := { s with seq := q }) hbusy]
      rfl
    · rw [emitterOff_of_completes (s := { s with seq := q }) hbusy hdraw]
      rfl
    · rw [emitterOff_of_stays (s := { s with seq := q }) hbusy hdraw]
      rfl
  case off =>
    rcases txSendcmd_fault_or_off s with hset | ⟨t, ht⟩
    · exact absurd (hkept.symm.trans hset) nofun
    · rw [finish_tx, ht]
      exact ⟨emitterOff_tx_level t, emitterOff_trace_getLast t⟩

/-! ## The frames of a command send, the wait unbounded (43_transmit.md R205) -/

/-- A frame of a command send, as the trace holds it (10_state.md R37). -/
def frameOf (q : List Nat) : TxEvent := .frame (pairsOf (packedFrame q))

/-- The state between two invocations, the last frame completed: the channel ready for the same frame again. -/
def betweenFrames (q : List Nat) (c : TxConfig) (trace : List TxEvent) (s : State) : State :=
  { s with
    env := envEnsured s
    tx := { alloc := true, busy := false, cfg := some c, buf := packedFrame q, played := 0, level := .idleLevel,
            trace := trace } }

section
variable {s : State} {q : List Nat} (c : TxConfig) (hq : q ≠ []) (hwait : s.maxWait = none)
include hq hwait

theorem txSend_of_unbounded (hgrant : s.tx.alloc = true ∨ (drawAlloc s).1 = true) :
    txSend q c s = done (betweenFrames q c (traceBefore s.tx c ++ [frameOf q]) s) := by
  rw [txSend_eq_request hgrant hq, txRequest_of_unbounded (s := txReady c s) _ hwait]
  rfl

/-- A further invocation only appends its frame to the trace. -/
theorem txSend_betweenFrames (trace : List TxEvent) :
    txSend q c (betweenFrames q c trace s) = done (betweenFrames q c (trace ++ [frameOf q]) s) := by
  have settled : traceBefore (betweenFrames q c trace s).tx c = trace := by
    simp [traceBefore, betweenFrames]
  rw [txSend_of_unbounded (s := betweenFrames q c trace s) c hq hwait (.inl rfl), settled]
  rfl

theorem sendLoop_betweenFrames (n : Nat) (trace : List TxEvent) :
    sendLoop q c n none (betweenFrames q c trace s) =
      done (driveLow (betweenFrames q c (trace ++ List.replicate n (frameOf q)) s)) := by
  induction n generalizing trace with
  | zero =>
    rw [sendLoop_zero, emitterOff_of_idle rfl, List.replicate_zero, List.append_nil]
    rfl
  | succ n ih =>
    rw [sendLoop_succ_of_done (txSend_betweenFrames c hq hwait trace), ih, List.append_assoc, List.replicate_succ,
      List.singleton_append]

end

/-! ## The frames of a command send, each with its own wait (43_transmit.md R205, R207) -/

/-- The transmit side after an invocation whose wait elapsed or not: the frame is in flight or recorded behind what came
before it. -/
structure Invoked (q : List Nat) (c : TxConfig) (before : List TxEvent) (expired : Bool) (tx : TxUnit) : Prop where
  alloc : tx.alloc = true
  cfg : tx.cfg = some c
  buf : tx.buf = packedFrame q
  busy : tx.busy = expired
  trace : tx.trace = before ++ (if expired then [] else [frameOf q])

/-- The next invocation finds the frame recorded, in flight or not. -/
theorem Invoked.traceBefore {q : List Nat} {c : TxConfig} {before : List TxEvent} {expired : Bool} {tx : TxUnit}
    (h : Invoked q c before expired tx) : traceBefore tx c = before ++ [frameOf q] := by
  rw [Machine.traceBefore, h.trace, h.cfg, h.buf, h.busy]
  cases expired <;> simp [frameOf]

/-- How the wait of an invocation ends it. -/
def waitEnds (expired : Bool) (s : State) : Ended := if expired then raise .eTimeout s else done s

theorem txSend_of_bounded {s : State} {q : List Nat} {m : Nat} {expired : Bool} {waits : List Bool} (c : TxConfig)
    (hq : q ≠ []) (hwait : s.maxWait = some m) (hgrant : s.tx.alloc = true ∨ (drawAlloc s).1 = true)
    (hscript : s.env.waits = expired :: waits) :
    ∃ t, txSend q c s = waitEnds expired t ∧ Invoked q c (traceBefore s.tx c) expired t.tx ∧
      t.maxWait = some m ∧ t.fault = s.fault ∧ t.env.waits = waits ∧ t.env.engine = s.env.engine := by
  have scripts : (txReady c s).env.waits = expired :: waits ∧ (txReady c s).env.engine = s.env.engine := by
    simp only [txReady, envEnsured]
    split <;> exact ⟨hscript, rfl⟩
  obtain ⟨hwaits, hengine⟩ := scripts
  have hdraw : drawWait (txReady c s) =
      (expired, { txReady c s with env := { (txReady c s).env with waits := waits } }) := by
    simp only [drawWait, hwaits, nextAnswer_cons]
  rw [txSend_eq_request hgrant hq]
  cases expired with
  | false =>
    rw [txRequest_of_completed (s := txReady c s) _ hwait (by rw [hdraw]), hdraw]
    exact ⟨_, rfl, ⟨rfl, rfl, rfl, rfl, rfl⟩, hwait, rfl, rfl, hengine⟩
  | true =>
    rw [txRequest_of_expired (s := txReady c s) _ hwait (by rw [hdraw]), hdraw]
    exact ⟨_, rfl, ⟨rfl, rfl, rfl, rfl, (List.append_nil _).symm⟩, hwait, rfl, rfl, hengine⟩

theorem sendLoop_succ_of_waitEnds {q : List Nat} {c : TxConfig} {s t : State} {expired : Bool}
    (h : txSend q c s = waitEnds expired t) (n : Nat) (first : Option ResultCode) :
    sendLoop q c (n + 1) first s =
      sendLoop q c n (first.or (if expired then some .eTimeout else none)) t := by
  cases expired with
  | false => rw [sendLoop_succ_of_done h, if_neg nofun, Option.or_none]
  | true => rw [sendLoop_succ_of_failed h rfl, if_pos rfl]

/-- The state after a command send whose last frame stays in flight or is recorded, behind the frames `before`
it; `left` are the answers of the wait's script that are left. -/
structure Emitted (q : List Nat) (c : TxConfig) (before : List TxEvent) (stays : Bool) (left : List Bool) (s : State) :
    Prop where
  fault : s.fault = false
  waits : s.env.waits = left
  cfg : s.tx.cfg = some c
  level : s.tx.level = .low
  busy : s.tx.busy = stays
  trace : s.tx.trace = before ++ (if stays then [] else [frameOf q]) ++ [.pinLow]

theorem emitterOff_of_invoked {s : State} {q : List Nat} {c : TxConfig} {before : List TxEvent} {expired e : Bool}
    {es : List Bool} (h : Invoked q c before expired s.tx) (hfault : s.fault = false)
    (hengine : s.env.engine = e :: es) :
    Emitted q c before (decide (expired = true ∧ e = false)) s.env.waits (emitterOff s) := by
  have hdraw : drawEngine s = (e, { s with env := { s.env with engine := es } }) := by
    simp only [drawEngine, hengine, nextAnswer_cons]
  have hbusy := h.busy
  cases expired with
  | false =>
    rw [emitterOff_of_idle hbusy]
    exact ⟨hfault, rfl, h.cfg, rfl, hbusy, by rw [driveLow_tx_trace, h.trace]; rfl⟩
  | true =>
    cases e with
    | false =>
      rw [emitterOff_of_stays hbusy (by rw [hdraw]), hdraw]
      exact ⟨hfault, rfl, h.cfg, rfl, hbusy, by rw [driveLow_tx_trace, h.trace]; rfl⟩
    | true =>
      rw [emitterOff_of_completes hbusy (by rw [hdraw]), hdraw]
      exact ⟨hfault, rfl, h.cfg, rfl, rfl, by simp [h.trace, h.buf, frameOf]⟩

/-- One invocation for each answer of the script, `w` first: the next invocation finds the frame before it recorded, so
only the last may stay in flight. -/
theorem sendLoop_of_bounded {q : List Nat} {m : Nat} {e : Bool} {es more : List Bool} (c : TxConfig) (hq : q ≠ [])
    (w : Bool) (ws : List Bool) {s : State} (first : Option ResultCode) (hwait : s.maxWait = some m)
    (hgrant : s.tx.alloc = true ∨ (drawAlloc s).1 = true) (hfault : s.fault = false)
    (hscript : s.env.waits = w :: ws ++ more) (hengine : s.env.engine = e :: es) :
    (sendLoop q c (ws.length + 1) first s).code =
      (first.or (if true ∈ w :: ws then some .eTimeout else none)).getD .ok ∧
    Emitted q c (traceBefore s.tx c ++ List.replicate ws.length (frameOf q))
      (decide ((w :: ws).getLast? = some true ∧ e = false)) more (sendLoop q c (ws.length + 1) first s).st := by
  induction ws generalizing s w first with
  | nil =>
    obtain ⟨t, hsent, hinvoked, _, hfault', rfl, hengine'⟩ := txSend_of_bounded c hq hwait hgrant hscript
    rw [List.length_nil, sendLoop_succ_of_waitEnds hsent, sendLoop_zero]
    have hoff := emitterOff_of_invoked hinvoked (hfault'.trans hfault) (hengine'.trans hengine)
    exact ⟨by simp, by simpa using hoff⟩
  | cons w' ws ih =>
    obtain ⟨t, hsent, hinvoked, hwait', hfault', hscript', hengine'⟩ := txSend_of_bounded c hq hwait hgrant hscript
    obtain ⟨hcode, hemitted⟩ := ih w' (first.or (if w then some .eTimeout else none)) hwait' (.inl hinvoked.alloc)
      (hfault'.trans hfault) hscript' (hengine'.trans hengine)
    rw [List.length_cons, sendLoop_succ_of_waitEnds hsent]
    constructor
    · rw [hcode]
      cases first <;> cases w <;> simp
    · rw [hinvoked.traceBefore, List.append_assoc, List.singleton_append, ← List.replicate_succ] at hemitted
      rwa [List.getLast?_cons_cons]

/-- The carrier of a command is the one the statements name (R181, R205). -/
theorem carrierOf_eq {p : Params} {x : Command} {c : TxConfig}
    (h : (x.type = "raw".toList ∧
        c = { carrierHz := if x.frequency ≠ 0 then x.frequency else p.rawDefaultFreq, duty := p.defaultDuty,
              invert := false }) ∨
      (x.type ≠ "raw".toList ∧ ∃ row, p.table.lookup x.protocol = some row ∧
        c = { carrierHz := row.carrierHz, duty := row.duty, invert := false })) : carrierOf p x = c := by
  rcases h with ⟨hraw, rfl⟩ | ⟨hraw, row, hrow, rfl⟩
  · exact if_pos hraw
  · have hother : x.type ≠ rawType := hraw
    rw [carrierOf, if_neg hother, rowOf, hrow]

/-- Settles O38: the first invocation drains and configures, each further one only appends its frame. -/
theorem sendcmdSendsRepeatPlusOneFrames : Obligations.SendcmdSendsRepeatPlusOneFrames := by
  rintro s q c f hfault hgrant hq henc hcarrier rfl
  have sends : exec .txSendcmd s = .next (finish (sendLoop q c (s.repeats + 1) none { s with seq := q })) := by
    rw [exec_txSendcmd hfault, txSendcmd_of_ok henc, carrierOf_eq hcarrier]
  refine ⟨fun hwait => ?unbounded, fun m ws more es e hwait hwaits hlength hengine => ?bounded⟩
  case unbounded =>
    rw [sends, sendLoop_succ_of_done (txSend_of_unbounded (s := { s with seq := q }) c hq hwait hgrant),
      sendLoop_betweenFrames (s := { s with seq := q }) c hq hwait, List.append_assoc, List.singleton_append,
      ← List.replicate_succ]
    rfl
  case bounded =>
    obtain ⟨w, ws, rfl⟩ := List.exists_cons_of_length_eq_add_one hlength
    have hloop := sendLoop_of_bounded (s := { s with seq := q }) c hq w ws none hwait hgrant hfault hwaits hengine
    rw [Nat.succ.inj hlength] at hloop
    obtain ⟨hcode, hemitted⟩ := hloop
    refine ⟨_, sends, ?_, hemitted.waits, hemitted.fault, ?_, hemitted.level, hemitted.cfg, hemitted.busy, ?_⟩
    · rw [finish_seq, sendLoop_frame]
    · rw [finish_result, hcode]
      split <;> rfl
    · rw [finish_tx, hemitted.trace]
      simp only [decide_eq_true_eq]
      rfl

end Sys2Proof.Machine
end

section
/-! PROOFS. Receive: the driver's operations (O40, O41, O42), the completion of a capture, and the batches the
reference capture computes (O43). -/

namespace Sys2Proof.Machine

/-! ## The operations of a block without a fault (60_exceptions.md R309) -/

section
variable {s : State} (hfault : s.fault = false)
include hfault

theorem exec_rxInit : exec .rxInit s = .next (finish (rxInit s.args.rx s)) :=
  issue_of_usable (fun s => rxInit s.args.rx s) hfault

theorem exec_rxPoll : exec .rxPoll s = .next (finish (rxPoll s)) := issue_of_usable rxPoll hfault

theorem exec_rxRearm : exec .rxRearm s = .next (finish (rxRearm s)) := issue_of_usable rxRearm hfault

theorem exec_rxDrain : exec .rxDrain s = .next (finish (rxDrain s)) := issue_of_usable rxDrain hfault

theorem exec_rxRestart : exec .rxRestart s = .next (finish (rxRestart s)) := issue_of_usable rxRestart hfault

theorem exec_rxDeinit : exec .rxDeinit s = .next (finish (rxDeinit s)) := issue_of_usable rxDeinit hfault

end

/-! ## RX.INIT and RX.DEINIT (44_receive.md R220, R231) -/

section
variable {s : State}

theorem rxInit_of_initialized (h : s.rx.state ≠ .uninit) (c : RxConfig) : rxInit c s = done s := if_pos h

theorem rxInit_of_granted (h : s.rx.state = .uninit) (hgranted : (drawAlloc s).1 = true) (c : RxConfig) :
    rxInit c s = done { (drawAlloc s).2 with
      rx := { s.rx with state := .armed, cfg := some c, queue := .empty, callback := true } } :=
  (if_neg (not_not_intro h)).trans (if_pos hgranted)

theorem rxInit_of_refused (h : s.rx.state = .uninit) (hrefused : (drawAlloc s).1 = false) (c : RxConfig) :
    rxInit c s = enterFault (drawAlloc s).2 :=
  (if_neg (not_not_intro h)).trans (if_neg (ne_true_of_eq_false hrefused))

theorem rxDeinit_of_uninit (h : s.rx.state = .uninit) : rxDeinit s = done s := if_pos h

theorem rxDeinit_of_initialized (h : s.rx.state ≠ .uninit) : rxDeinit s =
    done { s with rx := { s.rx with state := .uninit, cfg := none, queue := .absent, callback := false } } := if_neg h

end

/-- Settles O40: the three ways of RX.INIT and the two of RX.DEINIT. -/
theorem receiveInitAndDeinit : Obligations.ReceiveInitAndDeinit := by
  intro s hfault
  rw [exec_rxInit hfault, exec_rxDeinit hfault]
  refine ⟨fun hinit => ?again, fun huninit hgranted => ?granted, fun huninit hrefused => ?refused,
    fun huninit => ?nothing, fun hinit => ?freed⟩
  case again => rw [rxInit_of_initialized hinit]; rfl
  case granted => rw [rxInit_of_granted huninit hgranted]; rfl
  case refused => rw [rxInit_of_refused huninit hrefused]; rfl
  case nothing => rw [rxDeinit_of_uninit huninit]; rfl
  case freed => rw [rxDeinit_of_initialized hinit]; rfl

/-! ## The handoff queue (20_memory.md R74) -/

theorem qFull_of_full {rx : RxUnit} {b : RawBatch} (h : rx.queue = .full b) : qFull rx = true := by
  rw [qFull, h]

theorem qFull_eq_false {rx : RxUnit} (h : ∀ b, rx.queue ≠ .full b) : qFull rx = false := by
  cases hqueue : rx.queue with
  | absent | empty => rw [qFull, hqueue]
  | full b => exact absurd hqueue (h b)

theorem emptyQueue_of_created {q : Queue} (h : q ≠ .absent) : emptyQueue q = .empty := by
  cases q with
  | absent => exact absurd rfl h
  | empty | full _ => rfl

/-! ## RX.POLL (44_receive.md R227) -/

section
variable {s : State}

theorem rxPoll_of_uninit (h : s.rx.state = .uninit) : rxPoll s = raise .eNotInit s := if_pos h

theorem rxPoll_of_full {b : RawBatch} (h : s.rx.state ≠ .uninit) (hfull : s.rx.queue = .full b) :
    rxPoll s = { code := .ok, st := { s with rx := { s.rx with queue := .empty } }, value := .batch b } := by
  rw [rxPoll, if_neg h, hfull]

theorem rxPoll_of_not_full (h : s.rx.state ≠ .uninit) (hnone : ∀ b, s.rx.queue ≠ .full b) : rxPoll s = done s := by
  rcases rxPoll_cases s with ⟨huninit, _⟩ | ⟨_, b, hfull, _⟩ | ⟨_, _, heq⟩
  · exact absurd huninit h
  · exact absurd hfull (hnone b)
  · exact heq

end

/-- Settles O41: the three ways of RX.POLL. -/
theorem pollTakesTheBatch : Obligations.PollTakesTheBatch := by
  intro s hfault
  rw [exec_rxPoll hfault]
  refine ⟨fun huninit => ?refused, fun b hinit hfull => ?taken, fun hinit hnone => ?nothing⟩
  case refused => rw [rxPoll_of_uninit huninit]; rfl
  case taken => rw [rxPoll_of_full hinit hfull]; rfl
  case nothing => rw [rxPoll_of_not_full hinit hnone]; rfl

/-! ## RX.REARM, RX.DRAIN and RX.RESTART (44_receive.md R228, R229, R230) -/

section
variable {s : State}

theorem rxRearm_of_uninit (h : s.rx.state = .uninit) : rxRearm s = raise .eNotInit s := if_pos h

theorem rxRearm_of_full {b : RawBatch} (h : s.rx.state ≠ .uninit) (hfull : s.rx.queue = .full b) :
    rxRearm s = raise .eBackpressure s := by
  rw [rxRearm, if_neg h, if_pos (qFull_of_full hfull)]

theorem rxRearm_of_armed (h : s.rx.state = .armed) (hnone : ∀ b, s.rx.queue ≠ .full b) :
    rxRearm s = raise .eBadState s := by
  simp [rxRearm, h, qFull_eq_false hnone]

theorem rxRearm_of_idle (h : s.rx.state = .idle) (hnone : ∀ b, s.rx.queue ≠ .full b) :
    rxRearm s = done { s with rx := { s.rx with state := .armed } } := by
  simp [rxRearm, h, qFull_eq_false hnone]

theorem rxDrain_of_uninit (h : s.rx.state = .uninit) : rxDrain s = raise .eNotInit s := if_pos h

theorem rxDrain_of_created (h : s.rx.state ≠ .uninit) (hqueue : s.rx.queue ≠ .absent) :
    rxDrain s = done { s with rx := { s.rx with queue := .empty } } := by
  rw [rxDrain, if_neg h, emptyQueue_of_created hqueue]

theorem rxRestart_of_uninit (h : s.rx.state = .uninit) : rxRestart s = raise .eNotInit s := if_pos h

theorem rxRestart_of_created (h : s.rx.state ≠ .uninit) (hqueue : s.rx.queue ≠ .absent) :
    rxRestart s = done { s with rx := { s.rx with queue := .empty, state := .armed } } := by
  rw [rxRestart, if_neg h, emptyQueue_of_created hqueue]

end

/-- Settles O42: the ways of RX.REARM by the queue and the channel's state, and the two of RX.DRAIN and RX.RESTART. -/
theorem rearmDrainAndRestart : Obligations.RearmDrainAndRestart := by
  intro s hfault
  rw [exec_rxRearm hfault, exec_rxDrain hfault, exec_rxRestart hfault]
  refine ⟨fun huninit => ?uninit, fun b hinit hfull => ?pending, fun harmed hnone => ?armed, fun hidle hnone => ?idle,
    fun hinit hqueue => ?drained⟩
  case uninit =>
    rw [rxRearm_of_uninit huninit, rxDrain_of_uninit huninit, rxRestart_of_uninit huninit]
    exact ⟨rfl, rfl, rfl⟩
  case pending => rw [rxRearm_of_full hinit hfull]; rfl
  case armed => rw [rxRearm_of_armed harmed hnone]; rfl
  case idle => rw [rxRearm_of_idle hidle hnone]; rfl
  case drained =>
    rw [rxDrain_of_created hinit hqueue, rxRestart_of_created hinit hqueue]
    exact ⟨rfl, rfl⟩

/-! ## The batches of the reference capture (44_receive.md R225, R232) -/

/-- What R232 asks of a batch: 1 to 256 records, all of them when it is truncated. -/
theorem rawBatchWf_iff (b : RawBatch) : b.wf = true ↔
    1 ≤ b.symbols.length ∧ b.symbols.length ≤ 256 ∧ (b.truncated = true → b.symbols.length = 256) := by
  cases h : b.truncated <;> simp [RawBatch.wf, h, and_assoc]

/-- A capture records some waveform's runs, with room for two in each of the 256 records. -/
theorem captureOf_eq_some {c : RxConfig} {wave : List Interval} {b : RawBatch} (h : captureOf c wave = some b) :
    ∃ runs, b = { symbols := symbolsOf (recordRuns c 512 runs).1, truncated := (recordRuns c 512 runs).2 } := by
  unfold captureOf at h
  split at h
  · cases h
  · next i rest _ => exact ⟨i :: rest, (Option.some.inj h).symm⟩

/-- Two runs a record (`symbolsOf_length`): between 1 and 512 runs, all 512 when truncated (`recordRuns_length`), make
a batch that R232 admits. -/
theorem captureOf_wf {c : RxConfig} {wave : List Interval} {b : RawBatch} (h : captureOf c wave = some b) :
    b.wf = true := by
  obtain ⟨runs, rfl⟩ := captureOf_eq_some h
  obtain ⟨hroom, hfull, hsome⟩ := recordRuns_length c 512 runs
  have hsome := hsome (by decide)
  simp only [rawBatchWf_iff, symbolsOf_length]
  exact ⟨by omega, by omega, fun htruncated => by rw [hfull htruncated]⟩

/-! ## The completion of a capture (44_receive.md R226, 60_exceptions.md R311, R316) -/

section
variable {rx : RxUnit} (b : RawBatch)

theorem rxCapture_of_empty (hcallback : rx.callback = true) (hqueue : rx.queue = .empty) :
    rxCapture b rx = { rx with buf := writeFront b.symbols rx.buf, state := .idle, queue := .full b } := by
  simp [rxCapture, isrCallback, hcallback, hqueue]

/-- A full queue drops the batch (R316). -/
theorem rxCapture_of_full {old : RawBatch} (hqueue : rx.queue = .full old) :
    rxCapture b rx = { rx with buf := writeFront b.symbols rx.buf, state := .idle } := by
  simp [rxCapture, isrCallback, hqueue]

end

section
variable {s : State} {b : RawBatch} {rest : List Event} (hport : s.port = none) (hagenda : s.agenda = .rxBatch b :: rest)
include hport hagenda

theorem step_rxBatch_of_armed (hfault : s.fault = false) (hwf : b.wf = true) (harmed : s.rx.state = .armed) :
    step s = .next { s with agenda := rest, rx := rxCapture b s.rx } := by
  rw [step_of_agenda_cons hport hagenda]
  exact congrArg _ (if_pos ⟨harmed, hfault, hwf⟩)

theorem step_rxBatch_of_not_armed (hnot : s.rx.state ≠ .armed) : step s = .next { s with agenda := rest } := by
  rw [step_of_agenda_cons hport hagenda]
  exact congrArg _ (if_neg fun ⟨harmed, _⟩ => hnot harmed)

end

/-- Settles O43: the engine's step with its callback (`rxCapture_of_empty`, `rxCapture_of_full`), and the batches of
the reference capture (`captureOf_wf`). -/
theorem captureCompletesOnceArmed : Obligations.CaptureCompletesOnceArmed := by
  refine ⟨fun s b rest hfault hport hagenda hwf => ⟨fun harmed hcallback hempty => ?queued,
    fun old harmed _ hfull => ?dropped, step_rxBatch_of_not_armed hport hagenda⟩, fun c wave b h => ?admitted⟩
  case queued =>
    rw [step_rxBatch_of_armed hport hagenda hfault hwf harmed, rxCapture_of_empty b hcallback hempty]
    rfl
  case dropped =>
    rw [step_rxBatch_of_armed hport hagenda hfault hwf harmed, rxCapture_of_full b hfull]
    rfl
  case admitted => exact (rawBatchWf_iff b).mp (captureOf_wf h)

end Sys2Proof.Machine
end

section
/-! PROOFS. Sequence texts (O31), the normalizer (O45), and the loopback of a sent sequence through the reference
capture (O44). -/

namespace Sys2Proof.Machine

/-! ## Tokens of a text (30_encoding.md R107) -/

theorem tokensFrom_cons {c : Char} (h : c ≠ ' ') (acc rest : Text) :
    tokensFrom acc (c :: rest) = tokensFrom (c :: acc) rest := by
  cases acc <;> exact if_neg h

/-- Characters that are no space go on with the open token. -/
theorem tokensFrom_append {w : Text} (hw : ' ' ∉ w) (acc rest : Text) :
    tokensFrom acc (w ++ rest) = tokensFrom (w.reverse ++ acc) rest := by
  induction w generalizing acc with
  | nil => rfl
  | cons c w ih =>
    obtain ⟨hc, hw⟩ := List.ne_and_not_mem_of_not_mem_cons hw
    rw [List.cons_append, tokensFrom_cons hc.symm, ih hw, List.reverse_cons, List.append_assoc,
      List.singleton_append]

theorem tokensFrom_nil_of_ne {acc : Text} (h : acc ≠ []) : tokensFrom acc [] = [acc.reverse] := by
  cases acc with
  | nil => exact absurd rfl h
  | cons a acc => rfl

theorem tokensFrom_space_of_ne {acc : Text} (h : acc ≠ []) (rest : Text) :
    tokensFrom acc (' ' :: rest) = acc.reverse :: tokensFrom [] rest := by
  cases acc with
  | nil => exact absurd rfl h
  | cons a acc => rfl

section
variable {w : Text} (hw : ' ' ∉ w) (hne : w ≠ [])
include hw hne

theorem tokens_of_word : tokens w = [w] := by
  have := tokensFrom_append hw [] []
  rw [List.append_nil, List.append_nil, tokensFrom_nil_of_ne (List.reverse_ne_nil_iff.mpr hne),
    List.reverse_reverse] at this
  exact this

theorem tokens_word_space (rest : Text) : tokens (w ++ ' ' :: rest) = w :: tokens rest := by
  rw [tokens, tokensFrom_append hw, List.append_nil, tokensFrom_space_of_ne (List.reverse_ne_nil_iff.mpr hne),
    List.reverse_reverse, tokens]

end

/-- A character other than a space is in some token. -/
theorem exists_mem_tokensFrom {c : Char} (hc : c ≠ ' ') (acc t : Text) (h : c ∈ acc ∨ c ∈ t) :
    ∃ w ∈ tokensFrom acc t, c ∈ w := by
  induction t generalizing acc with
  | nil =>
    have hacc : c ∈ acc := h.resolve_right List.not_mem_nil
    exact ⟨acc.reverse, by simp [tokensFrom_nil_of_ne (List.ne_nil_of_mem hacc)], List.mem_reverse.mpr hacc⟩
  | cons d t ih =>
    by_cases hd : d = ' '
    · subst hd
      have ht (hcd : c ∈ ' ' :: t) : c ∈ t := (List.mem_cons.mp hcd).resolve_left hc
      rcases acc with _ | ⟨a, acc⟩
      · exact ih [] (h.imp_right ht)
      · rw [tokensFrom_space_of_ne (List.cons_ne_nil a acc)]
        rcases h with hacc | hrest
        · exact ⟨_, List.mem_cons_self, List.mem_reverse.mpr hacc⟩
        · obtain ⟨w, hw, hcw⟩ := ih [] (.inr (ht hrest))
          exact ⟨w, List.mem_cons_of_mem _ hw, hcw⟩
    · rw [tokensFrom_cons hd]
      refine ih (d :: acc) ?_
      simpa [or_assoc, or_left_comm] using h

/-! ## Numerals (R107, R108) -/

theorem isDigit_of_mem_decimal {n : Nat} {c : Char} (h : c ∈ decimal n) : c.isDigit = true :=
  Nat.isDigit_of_mem_toDigits (by decide) (by decide) h

theorem space_notMem_decimal (n : Nat) : ' ' ∉ decimal n := fun h => absurd (isDigit_of_mem_decimal h) (by decide)

theorem decimal_ne_nil (n : Nat) : decimal n ≠ [] := Nat.toDigits_ne_nil

theorem decimalValue_of_digits {t : Text} (hne : t ≠ []) (h : t.all Char.isDigit = true) :
    decimalValue t = some (Nat.ofDigitChars 10 t 0) := by
  cases t with
  | nil => exact absurd rfl hne
  | cons c t => exact if_pos h

/-- A numeral reads back as its number. -/
theorem decimalValue_decimal (n : Nat) : decimalValue (decimal n) = some n := by
  rw [decimalValue_of_digits (decimal_ne_nil n) (List.all_eq_true.mpr fun _ => isDigit_of_mem_decimal), decimal,
    Nat.ofDigitChars_ten_toDigits]

theorem decimalValue_eq_none {t : Text} {c : Char} (hc : c ∈ t) (hdigit : c.isDigit = false) :
    decimalValue t = none := by
  cases t with
  | nil => cases hc
  | cons d t => exact if_neg fun hall => ne_true_of_eq_false hdigit (List.all_eq_true.mp hall c hc)

theorem decimalValues_cons (t : Text) (ts : List Text) :
    decimalValues (t :: ts) = (decimalValue t).bind fun v => (decimalValues ts).map (v :: ·) := by
  rw [decimalValues]
  cases decimalValue t <;> cases decimalValues ts <;> rfl

theorem decimalValues_map_decimal (q : List Nat) : decimalValues (q.map decimal) = some q := by
  induction q with
  | nil => rfl
  | cons d q ih => rw [List.map_cons, decimalValues_cons, decimalValue_decimal, ih, Option.bind_some, Option.map_some]

theorem decimalValues_eq_none {ts : List Text} {t : Text} (ht : t ∈ ts) (hnone : decimalValue t = none) :
    decimalValues ts = none := by
  induction ts with
  | nil => cases ht
  | cons u ts ih =>
    rw [decimalValues_cons]
    rcases List.mem_cons.mp ht with rfl | ht
    · rw [hnone, Option.bind_none]
    · rw [ih ht]
      cases decimalValue u <;> rfl

/-- The ten digits, by character code. -/
theorem isDigit_iff_mem {c : Char} : c.isDigit = true ↔ c ∈ "0123456789".toList := by
  rw [Char.isDigit_iff_toNat]
  simp [← Char.toNat_inj]
  omega

/-! ## Texts of sequences (45_normalizer_decode.md R251, R252) -/

theorem tokens_render (q : List Nat) : tokens (render q) = q.map decimal := by
  match q with
  | [] => rfl
  | [d] => exact tokens_of_word (space_notMem_decimal d) (decimal_ne_nil d)
  | d :: e :: q =>
    rw [render, tokens_word_space (space_notMem_decimal d) (decimal_ne_nil d), tokens_render (e :: q)]
    rfl

theorem durations_render (q : List Nat) : durations (render q) = some q := by
  rw [durations, tokens_render, decimalValues_map_decimal]

theorem durations_eq_none {t : Text} {c : Char} (hc : c ∈ t) (hspace : c ≠ ' ') (hdigit : c ∉ "0123456789".toList) :
    durations t = none := by
  obtain ⟨w, hw, hcw⟩ := exists_mem_tokensFrom hspace [] t (.inr hc)
  have hnot : c.isDigit = false := Bool.eq_false_iff.mpr fun h => hdigit (isDigit_iff_mem.mp h)
  exact decimalValues_eq_none hw (decimalValue_eq_none hcw hnot)

/-- The rendering is the numerals joined by single spaces (R251). -/
theorem render_eq_intercalate (q : List Nat) : render q = [' '].intercalate (q.map (Nat.toDigits 10)) := by
  match q with
  | [] => rfl
  | [d] =>
    rw [List.map_singleton, List.intercalate_singleton]
    rfl
  | d :: e :: q =>
    simp only [render, render_eq_intercalate (e :: q), List.map_cons, List.intercalate_cons_cons, List.append_assoc]
    rfl

/-- Durations in range, each through APPENDRUN by position, are the runs of the sequence. -/
theorem positionRuns_of_range {q : List Nat} (h : ∀ d ∈ q, 1 ≤ d ∧ d ≤ 65535) (p : Polarity) :
    positionRuns p q = runsFrom p q := by
  induction q generalizing p with
  | nil => rfl
  | cons d q ih =>
    obtain ⟨hd, hq⟩ := List.forall_mem_cons.mp h
    rw [positionRuns, chunks_of_range p hd, ih hq, runsFrom, List.singleton_append]

/-- The text of a timing sequence reads back as it (R252). -/
theorem fromText_render {q : TimingSeq} (h : TimingSeq.wf q = true) : fromText (render q) = .ok q := by
  obtain ⟨_, hrange⟩ := (timingSeqWf_iff q).mp h
  have hruns : coalesce (positionRuns .mark q) = q := by
    rw [positionRuns_of_range hrange]
    exact coalesce_runsOf h
  simp only [fromText, durations_render, hruns]

section
variable {s : State} (hfault : s.fault = false)
include hfault

theorem exec_seqTotext : exec .seqTotext s = .next { s with result := .ok, value := .text (render s.seq) } :=
  issue_of_usable _ hfault

theorem exec_seqFromtext_of_ok {q : TimingSeq} (h : fromText s.args.text = .ok q) :
    exec .seqFromtext s = .next { s with seq := q, result := .ok, value := .none } :=
  issue_writeSeq_of_ok (r := fun s => fromText s.args.text) hfault h

theorem exec_seqFromtext_of_error {c : ResultCode} (h : fromText s.args.text = .error c) :
    exec .seqFromtext s = .next { s with result := c, value := .none } :=
  issue_writeSeq_of_error (r := fun s => fromText s.args.text) hfault h

end

/-- Settles O31: a list's text reads back as the list (`durations_render`), a timing sequence's text as the sequence
(`fromText_render`), and a character that is neither digit nor space is malformed (`durations_eq_none`). -/
theorem sequenceTextOperations : Obligations.SequenceTextOperations := by
  refine ⟨durations_render, fun s hfault => ⟨?totext, fun v hv => ?durations, fun q hq htext => ?identity,
    fun ⟨c, hc, hspace, hdigit⟩ => ?malformed⟩⟩
  case totext => rw [exec_seqTotext hfault, render_eq_intercalate]
  case durations => exact exec_seqFromtext_of_ok hfault (fromText_of_durations hv)
  case identity =>
    rw [← render_eq_intercalate] at htext
    refine exec_seqFromtext_of_ok hfault ?_
    rw [htext, fromText_render hq]
  case malformed =>
    exact exec_seqFromtext_of_error hfault (fromText_of_malformed (durations_eq_none hc hspace hdigit))

/-! ## The normalizer (45_normalizer_decode.md R250) -/

theorem polOf_eq_ite (b : Bool) : polOf b = if b then .mark else .space := by
  cases b <;> rfl

theorem batchCalls_eq (b : RawBatch) : batchCalls b = (runsOfBatch b).map (fun r => (r.pol, r.dur)) := by
  simp only [batchCalls, runsOfBatch, pairsOf, List.map_flatMap, List.map_cons, List.map_nil, polOf_eq_ite]

theorem normalizeBatch_eq_calls (b : RawBatch) : normalizeBatch b = coalesce (appendAll (batchCalls b)) := by
  rw [normalizeBatch, appendAll_eq, batchCalls_eq, List.flatMap_map]

/-- Settles O45: the pairs of the batch are the normalizer's APPENDRUN calls (`normalizeBatch_eq_calls`). -/
theorem normalizeWritesSequence : Obligations.NormalizeWritesSequence := by
  intro s hfault
  rw [← normalizeBatch_eq_calls]
  exact issue_of_usable _ hfault

/-! ## The reference capture of pulses that its thresholds respect (44_receive.md R222 to R225) -/

/-- Durations with levels that alternate from the given one on. -/
def alternating (b : Bool) : List Nat → List (Bool × Nat)
  | [] => []
  | d :: rest => (b, d) :: alternating (!b) rest

@[simp] theorem length_alternating (l : List Nat) (b : Bool) : (alternating b l).length = l.length := by
  induction l generalizing b with
  | nil => rfl
  | cons d l ih => rw [alternating, List.length_cons, ih, List.length_cons]

theorem mem_of_mem_alternating {l : List Nat} {b : Bool} {i : Bool × Nat} (h : i ∈ alternating b l) : i.2 ∈ l := by
  induction l generalizing b with
  | nil => cases h
  | cons d l ih =>
    rcases List.mem_cons.mp h with rfl | h
    · exact List.mem_cons_self
    · exact List.mem_cons_of_mem d (ih h)

theorem map_alternating (f : Nat → Nat) (l : List Nat) (b : Bool) :
    (alternating b l).map (fun i => (i.1, f i.2)) = alternating b (l.map f) := by
  induction l generalizing b with
  | nil => rfl
  | cons d l ih => rw [alternating, List.map_cons, ih, List.map_cons, alternating]

theorem zipIdx_parity_eq_alternating (l : List Nat) (k : Nat) :
    (l.zipIdx k).map (fun e => (decide (e.2 % 2 = 0), e.1)) = alternating (decide (k % 2 = 0)) l := by
  induction l generalizing k with
  | nil => rfl
  | cons d l ih =>
    have hnext : decide ((k + 1) % 2 = 0) = !decide (k % 2 = 0) := by
      rw [← decide_not]
      exact decide_eq_decide.mpr (by omega)
    rw [List.zipIdx_cons, List.map_cons, ih, hnext, alternating]

/-- Runs of a sequence as levels and durations. -/
theorem map_polOf_alternating (l : List Nat) (b : Bool) :
    (alternating b l).map (fun i => ({ pol := polOf i.1, dur := i.2 } : Run)) = runsFrom (polOf b) l := by
  induction l generalizing b with
  | nil => rfl
  | cons d l ih =>
    rw [alternating, List.map_cons, ih, runsFrom]
    cases b <;> rfl

/-- At the receiver a sent sequence has its own levels, whatever the pin's polarity (R221). -/
theorem logical_waveOf (activeLow : Bool) (q : List Nat) :
    (waveOf activeLow q).map (logicalLevel activeLow) = alternating true (q.dropLast.map (1000 * ·)) := by
  have hlevels : q.dropLast.zipIdx.map (fun e => (decide (e.2 % 2 = 0), e.1)) = alternating true q.dropLast :=
    zipIdx_parity_eq_alternating q.dropLast 0
  rw [← map_alternating, ← hlevels, waveOf, List.map_map, List.map_map]
  simp [logicalLevel]

/-- Without a glitch the filter changes nothing (R223). -/
theorem deglitch_of_long {minNs : Nat} {l : List (Bool × Nat)} (h : ∀ i ∈ l, minNs ≤ i.2) (before : Bool) :
    deglitch minNs before l = l := by
  induction l generalizing before with
  | nil => rfl
  | cons i l ih =>
    obtain ⟨hi, hl⟩ := List.forall_mem_cons.mp h
    simp only [deglitch, if_neg (Nat.not_lt.mpr hi), ih hl]

/-- Levels that alternate are not joined (R223). -/
theorem joinLevels_alternating (l : List Nat) (b : Bool) : joinLevels (alternating b l) = alternating b l := by
  induction l generalizing b with
  | nil => rfl
  | cons d l ih =>
    rw [alternating, joinLevels, ih]
    cases l with
    | nil => rfl
    | cons e l => exact if_neg (Bool.eq_not_self b).mp

/-- A wave without an ending interval, and with room for it, is recorded whole, the ending idle after it (R224). -/
theorem recordRuns_of_inside {c : RxConfig} {l : List (Bool × Nat)} {room : Nat} (hroom : l.length < room)
    (h : ∀ i ∈ l, endsCapture c i.1 i.2 = false) :
    recordRuns c room l = (l.map (fun i => (i.1, microsOf i.2)) ++ [(false, 0)], false) := by
  induction l generalizing room with
  | nil =>
    obtain ⟨room, rfl⟩ := Nat.exists_eq_succ_of_ne_zero (Nat.ne_of_gt hroom)
    rfl
  | cons i l ih =>
    obtain ⟨room, rfl⟩ := Nat.exists_eq_succ_of_ne_zero (Nat.ne_zero_of_lt hroom)
    obtain ⟨hi, hl⟩ := List.forall_mem_cons.mp h
    rw [recordRuns, if_neg (ne_true_of_eq_false hi), ih (Nat.lt_of_succ_lt_succ hroom) hl, List.map_cons,
      List.cons_append]

theorem microsOf_of_range {d : Nat} (h : d ≤ 65535) : microsOf (1000 * d) = d := by
  rw [microsOf, Nat.mul_div_cancel_left d (by decide), Nat.min_eq_right h]

/-- An interval within the thresholds ends no capture (R224). -/
theorem endsCapture_of_inside {c : RxConfig} {active : Bool} {ns : Nat} (hmax : ns ≤ c.maxPulseNs)
    (hidle : ns < c.idleThresholdNs) : endsCapture c active ns = false := by
  simp [endsCapture, hmax, hidle]

/-- An even number of pairs in range stands in the records as it is (R222). -/
theorem pairsOf_symbolsOf : ∀ {l : List (Bool × Nat)}, l.length % 2 = 0 → (∀ i ∈ l, i.2 ≤ 65535) →
    pairsOf (symbolsOf l) = l
  | [], _, _ => rfl
  | [i], heven, _ => absurd heven (by simp)
  | i :: j :: l, heven, h => by
    have fits {d : Nat} (h : d ≤ 65535) : (BitVec.ofNat 16 d).toNat = d := by
      rw [BitVec.toNat_ofNat]
      omega
    obtain ⟨hi, hj, hl⟩ : i.2 ≤ 65535 ∧ j.2 ≤ 65535 ∧ ∀ i ∈ l, i.2 ≤ 65535 := by simpa using h
    have hrest := pairsOf_symbolsOf (l := l) (by simpa [Nat.add_mod_right l.length 2] using heven) hl
    rw [symbolsOf]
    simpa [pairsOf, fits hi, fits hj] using hrest

/-- COALESCE of alternating runs in range, a mark first, pads them at most. -/
theorem coalesce_runsFrom {l : List Nat} (h : ∀ d ∈ l, 1 ≤ d ∧ d ≤ 65535) :
    coalesce (runsFrom .mark l) = padSeq l := by
  rw [coalesce, foldl_coalesceStep_runsFrom l .mark [] nofun h, List.append_nil, List.reverse_reverse, runsFrom_durs]

/-! ## Loopback -/

/-- What the engine records of the marks and spaces before the idle after them. -/
def loopbackBatch (l : List Nat) : RawBatch :=
  { symbols := symbolsOf (alternating true l ++ [(false, 0)]), truncated := false }

section
variable {c : RxConfig} {l : List Nat} (hodd : l.length % 2 = 1) (hrange : ∀ d ∈ l, 1 ≤ d ∧ d ≤ 65535)
include hodd hrange

/-- A sent sequence within the thresholds is captured whole (R221 to R225). -/
theorem captureOf_waveOf {q : List Nat} (hq : q.dropLast = l) (hlength : l.length < 512)
    (hthresholds : ∀ d ∈ l, c.minPulseNs ≤ 1000 * d ∧ 1000 * d ≤ c.maxPulseNs ∧ 1000 * d < c.idleThresholdNs) :
    captureOf c (waveOf c.activeLow q) = some (loopbackBatch l) := by
  have inside {i : Bool × Nat} (hi : i ∈ alternating true (l.map (1000 * ·))) :
      c.minPulseNs ≤ i.2 ∧ i.2 ≤ c.maxPulseNs ∧ i.2 < c.idleThresholdNs := by
    obtain ⟨d, hd, heq⟩ := List.mem_map.mp (mem_of_mem_alternating hi)
    exact heq ▸ hthresholds d hd
  have hlevels : joinLevels (deglitch c.minPulseNs false ((waveOf c.activeLow q).map (logicalLevel c.activeLow))) =
      alternating true (l.map (1000 * ·)) := by
    rw [logical_waveOf, hq, deglitch_of_long fun i hi => (inside hi).1, joinLevels_alternating]
  have hmicros : l.map (microsOf ∘ (1000 * ·)) = l :=
    (List.map_congr_left fun d hd => microsOf_of_range (hrange d hd).2).trans (List.map_id l)
  have hrecord : recordRuns c 512 (alternating true (l.map (1000 * ·))) =
      (alternating true l ++ [(false, 0)], false) := by
    have hnoend : ∀ i ∈ alternating true (l.map (1000 * ·)), endsCapture c i.1 i.2 = false := fun i hi =>
      have ⟨_, hmax, hidle⟩ := inside hi
      endsCapture_of_inside hmax hidle
    rw [recordRuns_of_inside (by simpa using hlength) hnoend, map_alternating, List.map_map, hmicros]
  obtain ⟨d, rest, rfl⟩ := List.exists_cons_of_length_pos (l := l) (by omega)
  unfold captureOf
  rw [hlevels]
  exact congrArg (fun r : List (Bool × Nat) × Bool => some (RawBatch.mk (symbolsOf r.1) r.2)) hrecord

/-- The ending idle has no duration, so COALESCE sees an odd number of runs and pads them (R250, R131). -/
theorem normalizeBatch_loopback : normalizeBatch (loopbackBatch l) = l ++ [1] := by
  have hpairs : pairsOf (loopbackBatch l).symbols = alternating true l ++ [(false, 0)] := by
    refine pairsOf_symbolsOf ?_ ?_
    · rw [List.length_append, length_alternating, List.length_singleton]
      omega
    · intro i hi
      rcases List.mem_append.mp hi with hi | hi
      · exact (hrange _ (mem_of_mem_alternating hi)).2
      · rw [List.mem_singleton.mp hi]
        exact Nat.zero_le _
  have hruns : runsOfBatch (loopbackBatch l) = runsFrom .mark l ++ [{ pol := .space, dur := 0 }] := by
    rw [runsOfBatch, hpairs, List.map_append, map_polOf_alternating]
    rfl
  have hchunks : (runsFrom .mark l).flatMap (fun r => chunks r.pol r.dur) = runsFrom .mark l := by
    have hmem : ∀ r ∈ runsFrom .mark l, r.dur ∈ l := fun r hr => by
      rw [← runsFrom_durs l .mark]
      exact List.mem_map_of_mem hr
    rw [List.flatMap_congr fun r hr => chunks_of_range r.pol (hrange _ (hmem r hr))]
    exact List.flatMap_singleton' _
  rw [normalizeBatch, hruns, List.flatMap_append, hchunks, List.flatMap_singleton]
  calc coalesce (runsFrom .mark l ++ chunks .space 0)
      = coalesce (runsFrom .mark l) := by rw [chunks_eq]; simp
    _ = l ++ [1] := by rw [coalesce_runsFrom hrange, padSeq, if_pos hodd]

end

/-- Settles O44: the waveform is captured whole (`captureOf_waveOf`), the capture completes into the empty queue
(`rxCapture_of_empty`), and its batch normalises to the sequence (`normalizeBatch_loopback`). -/
theorem loopbackCaptureNormalises : Obligations.LoopbackCaptureNormalises := by
  intro s c q rest hfault hport hagenda harmed hcallback hqueue hcfg hwf hne hlength hthresholds
  obtain ⟨heven, hrange⟩ := (timingSeqWf_iff q).mp hwf
  have hpos := List.length_pos_of_ne_nil hne
  have hodd : q.dropLast.length % 2 = 1 := by
    rw [List.length_dropLast]
    omega
  have hshort : q.dropLast.length < 512 := by
    rw [List.length_dropLast]
    omega
  have hinside : ∀ d ∈ q.dropLast, 1 ≤ d ∧ d ≤ 65535 := fun d hd => hrange d (List.mem_of_mem_dropLast hd)
  have hcapture := captureOf_waveOf hodd hinside rfl hshort hthresholds
  have hstep : step s = .next { s with agenda := rest, rx := rxCapture (loopbackBatch q.dropLast) s.rx } := by
    rw [step_of_agenda_cons hport hagenda]
    change Host.Outcome.next (rxWave (waveOf c.activeLow q) { s with agenda := rest }) = _
    simp only [rxWave, hcfg, hcapture]
    exact congrArg _ (if_pos ⟨harmed, hfault, captureOf_wf hcapture⟩)
  rw [rxCapture_of_empty _ hcallback hqueue] at hstep
  exact ⟨loopbackBatch q.dropLast, _, hstep, rfl, rfl, rfl, normalizeBatch_loopback hodd hinside⟩

end Sys2Proof.Machine
end

section
/-! PROOFS. The match over the table (O46) and the decoders of the two pulse families (O47). -/

namespace Sys2Proof.Machine

/-! ## The match over the table (45_normalizer_decode.md R253) -/

/-- The row is not the answer: its decoder refuses the sequence, or the check of its name fails. -/
def RowRejects (p : Params) (q : TimingSeq) (r : Text × ProtocolSpec) : Prop :=
  ∀ d, decodeRow p.decodeTolPct r.2 q = some d → validFrame p.rc5Layout r.1 d = false

section
variable {p : Params} {q : TimingSeq}

theorem tryRow_of_valid {name : Text} {row : ProtocolSpec} {data : Nat}
    (hdecode : decodeRow p.decodeTolPct row q = some data) (hvalid : validFrame p.rc5Layout name data = true) :
    tryRow p q (name, row) = some (name, data, row.nbits) := by
  simp only [tryRow, hdecode]
  exact if_pos hvalid

theorem tryRow_of_rejects {r : Text × ProtocolSpec} (h : RowRejects p q r) : tryRow p q r = none := by
  cases hdecode : decodeRow p.decodeTolPct r.2 q with
  | none => simp only [tryRow, hdecode]
  | some d =>
    simp only [tryRow, hdecode]
    exact if_neg (ne_true_of_eq_false (h d hdecode))

/-- The first row that is not rejected is the answer. -/
theorem matchRows_of_first {before after : List (Text × ProtocolSpec)} {name : Text} {row : ProtocolSpec} {data : Nat}
    (htable : p.table = before ++ (name, row) :: after) (hbefore : ∀ r ∈ before, RowRejects p q r)
    (hdecode : decodeRow p.decodeTolPct row q = some data) (hvalid : validFrame p.rc5Layout name data = true) :
    matchRows p q = some (name, data, row.nbits) := by
  have hskip : before.findSome? (tryRow p q) = none :=
    List.findSome?_eq_none_iff.mpr fun r hr => tryRow_of_rejects (hbefore r hr)
  rw [matchRows, htable, List.findSome?_append, hskip, Option.none_or,
    List.findSome?_cons_of_isSome (by rw [tryRow_of_valid hdecode hvalid]; rfl), tryRow_of_valid hdecode hvalid]

theorem matchRows_of_rejects (h : ∀ r ∈ p.table, RowRejects p q r) : matchRows p q = none :=
  List.findSome?_eq_none_iff.mpr fun r hr => tryRow_of_rejects (h r hr)

end

section
variable {s : State}

theorem decMatch_of_nil (hseq : s.seq = []) : decMatch s = raise .eEmptySeq s := by
  simp only [decMatch, hseq]

theorem decMatch_of_some (hseq : s.seq ≠ []) {name : Text} {data nbits : Nat}
    (hmatch : matchRows s.params s.seq = some (name, data, nbits)) :
    decMatch s = { code := .ok, st := s, value := .decoded name data nbits } := by
  obtain ⟨d, ds, hcons⟩ := List.exists_cons_of_ne_nil hseq
  rw [hcons] at hmatch
  simp only [decMatch, hcons, hmatch]

theorem decMatch_of_none (hseq : s.seq ≠ []) (hmatch : matchRows s.params s.seq = none) :
    decMatch s = raise .eNotSupported s := by
  obtain ⟨d, ds, hcons⟩ := List.exists_cons_of_ne_nil hseq
  rw [hcons] at hmatch
  simp only [decMatch, hcons, hmatch]

theorem exec_decMatch (hfault : s.fault = false) : exec .decMatch s = .next (finish (decMatch s)) :=
  issue_of_usable decMatch hfault

theorem exec_decMatch_of_some (hfault : s.fault = false) (hseq : s.seq ≠ []) {name : Text} {data nbits : Nat}
    (hmatch : matchRows s.params s.seq = some (name, data, nbits)) :
    exec .decMatch s = .next { s with result := .ok, value := .decoded name data nbits } := by
  rw [exec_decMatch hfault, decMatch_of_some hseq hmatch, finish]

end

/-! ## The check of each name (R258) -/

theorem byteAt_eq (v j : Nat) : byteAt v j = v / 2 ^ (8 * j) % 2 ^ 8 := by
  exact congrArg (· % 2 ^ 8) (Nat.shiftRight_eq_div_pow v (8 * j))

theorem validFrame_nec (l : Rc5Layout) (d : Nat) : validFrame l necName d = true ↔
    d / 2 ^ 8 % 2 ^ 8 = 255 - d % 2 ^ 8 ∧ d / 2 ^ 24 % 2 ^ 8 = 255 - d / 2 ^ 16 % 2 ^ 8 := by
  simp [validFrame, byteAt_eq]

theorem validFrame_rc5_listed15 (d : Nat) :
    validFrame .listed15 rc5Name d = true ↔ d.testBit 14 = true ∧ d.testBit 13 = true := by
  simp [validFrame, rc5Name, necName]

theorem validFrame_rc5_std14 (d : Nat) : validFrame .std14 rc5Name d = true ↔ d.testBit 13 = true := by
  simp [validFrame, rc5Name, necName]

theorem validFrame_rc6 (l : Rc5Layout) (d : Nat) : validFrame l rc6Name d = true ↔ d / 2 ^ 17 % 2 ^ 3 = 0 := by
  simp [validFrame, rc6Name, rc5Name, necName, Nat.shiftRight_eq_div_pow]

theorem validFrame_kaseikyo (l : Rc5Layout) {d w : Nat} (hw : w = bitrev 48 d) :
    validFrame l kaseikyoName d = true ↔
      w / 2 ^ 40 % 2 ^ 8 = (w / 2 ^ 16 % 2 ^ 8 ^^^ w / 2 ^ 24 % 2 ^ 8 ^^^ w / 2 ^ 32 % 2 ^ 8) := by
  subst hw
  simp [validFrame, kaseikyoName, rc6Name, rc5Name, necName, byteAt_eq]

theorem validFrame_unchecked (l : Rc5Layout) (d : Nat) {name : Text}
    (h : name ∉ [necName, rc5Name, rc6Name, kaseikyoName]) : validFrame l name d = true := by
  simp only [List.mem_cons, List.not_mem_nil, or_false, not_or] at h
  obtain ⟨hnec, hrc5, hrc6, hkaseikyo⟩ := h
  simp only [validFrame, if_neg hnec, if_neg hrc5, if_neg hrc6, if_neg hkaseikyo]

/-- The decoder of a row is its family's (R253). -/
theorem decodeRow_of_family (tol : Nat) (p : ProtocolSpec) (q : List Nat) :
    (p.family = .pd → decodeRow tol p q = decPd tol p q) ∧ (p.family = .pw → decodeRow tol p q = decPw tol p q) ∧
    (p.family = .biphase → decodeRow tol p q = decBiphase tol p q) := by
  refine ⟨fun h => ?_, fun h => ?_, fun h => ?_⟩ <;> simp only [decodeRow, h]

/-- Settles O46: the search (`matchRows_of_first`, `matchRows_of_rejects`), the decoder of each family and the check of
each name. -/
theorem decodeTakesFirstMatchingRow : Obligations.DecodeTakesFirstMatchingRow := by
  refine ⟨fun s hfault => ⟨fun hseq => ?empty, ?found, fun hseq h => ?none⟩, decodeRow_of_family,
    fun l d w => ⟨validFrame_nec l d, validFrame_rc5_listed15 d, validFrame_rc5_std14 d, validFrame_rc6 l d,
      validFrame_kaseikyo l, fun name => validFrame_unchecked l d⟩⟩
  case empty =>
    rw [exec_decMatch hfault, decMatch_of_nil hseq]
    rfl
  case found =>
    intro before after name row data hseq htable hbefore hdecode hvalid
    exact exec_decMatch_of_some hfault hseq (matchRows_of_first htable hbefore hdecode hvalid)
  case none =>
    rw [exec_decMatch hfault, decMatch_of_none hseq (matchRows_of_rejects h)]
    rfl

end Sys2Proof.Machine
end

section
/-! PROOFS. The decoders of the two pulse families: what they accept, and that they invert their builders (O47). -/

namespace Sys2Proof.Machine

/-! ## The tolerance (45_normalizer_decode.md R254) -/

theorem near_iff (tol m n : Nat) : near tol m n = true ↔ 100 * (m - n) ≤ tol * n ∧ 100 * (n - m) ≤ tol * n := by
  rw [near, decide_eq_true_iff]
  omega

theorem near_self (tol n : Nat) : near tol n n = true := (near_iff tol n n).mpr (by simp)

/-! ## Cells by position -/

theorem cellNear_eq_cellAt (tol mark space m s : Nat) (rest : List Nat) :
    cellNear tol mark space m s rest = cellAt tol mark space 0 (m :: s :: rest) := by
  cases rest <;> simp [cellNear, cellAt]

theorem getD_drop (q : List Nat) (k i : Nat) : (q.drop k).getD i 0 = q.getD (k + i) 0 := by
  simp only [List.getD_eq_getElem?_getD, List.getElem?_drop]

/-- A cell of a sequence is the first cell of what is left from it on. -/
theorem cellAt_drop (tol mark space k : Nat) (q : List Nat) :
    cellAt tol mark space 0 (q.drop k) = cellAt tol mark space k q := by
  have hlast : decide (0 + 2 = (q.drop k).length) = decide (k + 2 = q.length) := by
    rw [List.length_drop]
    exact decide_eq_decide.mpr (by omega)
  rw [cellAt, cellAt, hlast, getD_drop, getD_drop, Nat.add_zero]

/-- What is left of a sequence with at least two more elements. -/
theorem drop_eq_two_cons {q : List Nat} {k : Nat} (h : k + 2 ≤ q.length) :
    ∃ m s, q.drop k = m :: s :: q.drop (k + 2) :=
  ⟨q[k], q[k + 1], by rw [List.drop_eq_getElem_cons (by omega), List.drop_eq_getElem_cons (by omega)]⟩

/-! ## The word of the bits read (R65, R150) -/

/-- The data word after `k` more bits from bit `i` on, each put at its place. -/
def gatherBits (o : BitOrder) (n : Nat) (bit : Nat → Bool) : (k i data : Nat) → Nat
  | 0, _, data => data
  | k + 1, i, data => gatherBits o n bit k (i + 1) (data ||| ((if bit i then 1 else 0) <<< bitPlace o n i))

theorem bitPlace_lt {n i : Nat} (o : BitOrder) (h : i < n) : bitPlace o n i < n := by
  cases o with
  | lsbFirst => exact h
  | msbFirst =>
    simp only [bitPlace]
    omega

theorem bitPlace_bitPlace {n i : Nat} (o : BitOrder) (h : i < n) : bitPlace o n (bitPlace o n i) = i := by
  cases o with
  | lsbFirst => rfl
  | msbFirst =>
    simp only [bitPlace]
    omega

theorem bitPlace_inj {n i j : Nat} (o : BitOrder) (hi : i < n) (hj : j < n) :
    bitPlace o n i = bitPlace o n j ↔ i = j := by
  refine ⟨fun h => ?_, fun h => h ▸ rfl⟩
  rw [← bitPlace_bitPlace o hi, h, bitPlace_bitPlace o hj]

theorem testBit_bit_shiftLeft (b : Bool) (m x : Nat) :
    ((if b then 1 else 0) <<< m).testBit x = (b && decide (x = m)) := by
  cases b
  case false => simp
  case true =>
    rw [if_pos rfl, Nat.one_shiftLeft, Nat.testBit_two_pow, Bool.true_and]
    exact decide_eq_decide.mpr eq_comm

theorem sentBit_gatherBits {o : BitOrder} {n k i j : Nat} (bit : Nat → Bool) (hk : i + k ≤ n) (hj : j < n)
    (data : Nat) :
    sentBit o (gatherBits o n bit k i data) n j = (sentBit o data n j || (decide (i ≤ j ∧ j < i + k) && bit j)) := by
  induction k generalizing i data with
  | zero =>
    have hnone : ¬(i ≤ j ∧ j < i + 0) := by omega
    rw [gatherBits, decide_eq_false hnone, Bool.false_and, Bool.or_false]
  | succ k ih =>
    have hplace : sentBit o (data ||| ((if bit i then 1 else 0) <<< bitPlace o n i)) n j =
        (sentBit o data n j || (bit i && decide (j = i))) := by
      simp only [sentBit, Nat.testBit_or, testBit_bit_shiftLeft, bitPlace_inj o hj (by omega : i < n)]
    rw [gatherBits, ih (by omega), hplace, Bool.or_assoc]
    congr 1
    by_cases hji : j = i
    · subst hji
      have hlater : ¬(j + 1 ≤ j ∧ j < j + 1 + k) := by omega
      have hhere : j ≤ j ∧ j < j + (k + 1) := by omega
      simp [hhere.2]
    · have hsame : (i + 1 ≤ j ∧ j < i + 1 + k) ↔ (i ≤ j ∧ j < i + (k + 1)) := by omega
      simp only [hsame, hji, decide_false, Bool.and_false, Bool.false_or]

theorem gatherBits_lt {o : BitOrder} {n k i data : Nat} (bit : Nat → Bool) (hk : i + k ≤ n) (hdata : data < 2 ^ n) :
    gatherBits o n bit k i data < 2 ^ n := by
  induction k generalizing i data with
  | zero => exact hdata
  | succ k ih =>
    refine ih (by omega) (Nat.or_lt_two_pow hdata ?_)
    split
    · rw [Nat.one_shiftLeft]
      exact Nat.pow_lt_pow_right (by decide) (bitPlace_lt o (by omega))
    · rw [Nat.zero_shiftLeft]
      exact Nat.two_pow_pos n

/-- A word in range is told by the bits it sends. -/
theorem eq_of_sentBit {o : BitOrder} {n d e : Nat} (hd : d < 2 ^ n) (he : e < 2 ^ n)
    (h : ∀ i, i < n → sentBit o d n i = sentBit o e n i) : d = e := by
  refine Nat.eq_of_testBit_eq fun x => ?_
  by_cases hx : x < n
  · have hsent := h (bitPlace o n x) (bitPlace_lt o hx)
    rwa [sentBit, sentBit, bitPlace_bitPlace o hx] at hsent
  · have hbound : 2 ^ n ≤ 2 ^ x := Nat.pow_le_pow_right (by decide) (by omega)
    rw [Nat.testBit_lt_two_pow (hd.trans_le hbound), Nat.testBit_lt_two_pow (he.trans_le hbound)]

/-- All bits read make the word that sends them. -/
theorem gatherBits_eq_iff {o : BitOrder} {n d : Nat} (bit : Nat → Bool) :
    gatherBits o n bit n 0 0 = d ↔ d < 2 ^ n ∧ ∀ i, i < n → sentBit o d n i = bit i := by
  have hsent (i : Nat) (hi : i < n) : sentBit o (gatherBits o n bit n 0 0) n i = bit i := by
    rw [sentBit_gatherBits bit (by omega) hi]
    simp [sentBit, hi]
  have hlt : gatherBits o n bit n 0 0 < 2 ^ n := gatherBits_lt bit (by omega) (Nat.two_pow_pos n)
  constructor
  · rintro rfl
    exact ⟨hlt, hsent⟩
  · rintro ⟨hd, hbits⟩
    exact eq_of_sentBit hlt hd fun i hi => (hsent i hi).trans (hbits i hi).symm

theorem sentBit_mod (o : BitOrder) (data : Nat) {n i : Nat} (h : i < n) :
    sentBit o (data % 2 ^ n) n i = sentBit o data n i := by
  rw [sentBit, Nat.testBit_mod_two_pow, decide_eq_true (bitPlace_lt o h), Bool.true_and, sentBit]

/-! ## The walk over a frame (R255, R256) -/

/-- Elements of the header a row declares. -/
def headerLength (p : ProtocolSpec) : Nat := if p.headerMark ≠ 0 then 2 else 0

/-- Elements of the trailer a row declares, the idle after it one of them. -/
def trailerLength (p : ProtocolSpec) : Nat := if p.trailerMark ≠ 0 then 2 else 0

section
variable {tol : Nat} {p : ProtocolSpec} {oneSpace zeroSpace : Nat} {q : List Nat}

theorem readHeader_eq_some_iff {q1 : List Nat} : readHeader tol p q = some q1 ↔
    headerLength p ≤ q.length ∧ (p.headerMark ≠ 0 → cellAt tol p.headerMark p.headerSpace 0 q = true) ∧
      q.drop (headerLength p) = q1 := by
  unfold readHeader headerLength
  by_cases hmark : p.headerMark = 0
  · simp [hmark]
  · match q with
    | [] => simp [hmark]
    | [_] => simp [hmark]
    | m :: s :: rest => simp [hmark, cellNear_eq_cellAt]

theorem readTrailer_iff : readTrailer tol p q = true ↔
    q.length = trailerLength p ∧ (p.trailerMark ≠ 0 → near tol (q.getD 0 0) p.trailerMark = true) := by
  unfold readTrailer trailerLength
  by_cases hmark : p.trailerMark = 0
  · simp [hmark]
  · match q with
    | [] => simp [hmark]
    | [_] => simp [hmark]
    | [_, _] => simp [hmark]
    | _ :: _ :: _ :: _ => simp [hmark]

/-- `k` bits are read from bit `i` on when each is near one of its two cells and not both. -/
theorem readBits_drop_iff {h k i data d : Nat} {q2 : List Nat} (hi : h + 2 * i ≤ q.length) :
    readBits tol p oneSpace zeroSpace k i data (q.drop (h + 2 * i)) = some (d, q2) ↔
      h + 2 * (i + k) ≤ q.length ∧ q.drop (h + 2 * (i + k)) = q2 ∧
      (∀ j, i ≤ j → j < i + k → cellAt tol p.oneMark oneSpace (h + 2 * j) q ≠
        cellAt tol p.zeroMark zeroSpace (h + 2 * j) q) ∧
      gatherBits p.bitOrder p.nbits (fun j => cellAt tol p.oneMark oneSpace (h + 2 * j) q) k i data = d := by
  induction k generalizing i data with
  | zero =>
    have hnone : ∀ j, i ≤ j → ¬j < i + 0 := by omega
    simp only [readBits, gatherBits, Option.some.injEq, Prod.mk.injEq, Nat.add_zero]
    constructor
    · rintro ⟨hd, hq⟩
      exact ⟨hi, hq, fun j hj hj' => absurd hj' (hnone j hj), hd⟩
    · rintro ⟨_, hq, _, hd⟩
      exact ⟨hd, hq⟩
  | succ k ih =>
    by_cases hlength : h + 2 * i + 2 ≤ q.length
    · obtain ⟨m, s, hcell⟩ := drop_eq_two_cons hlength
      have hone := cellAt_drop tol p.oneMark oneSpace (h + 2 * i) q
      have hzero := cellAt_drop tol p.zeroMark zeroSpace (h + 2 * i) q
      rw [hcell] at hone hzero
      have hnext : h + 2 * i + 2 = h + 2 * (i + 1) := by omega
      have hcount : i + (k + 1) = i + 1 + k := by omega
      rw [hcell, readBits, cellNear_eq_cellAt, cellNear_eq_cellAt, hone, hzero, hnext, hcount, gatherBits]
      by_cases hsame : cellAt tol p.oneMark oneSpace (h + 2 * i) q = cellAt tol p.zeroMark zeroSpace (h + 2 * i) q
      · simp only [hsame, if_true]
        simp only [reduceCtorEq, false_iff]
        rintro ⟨_, _, hbits, _⟩
        exact hbits i le_rfl (by omega) hsame
      · simp only [hsame, if_false]
        rw [ih (by omega)]
        refine and_congr_right fun _ => and_congr_right fun _ => and_congr_left fun _ => ?_
        constructor
        · intro hbits j hj hj'
          rcases hj.eq_or_lt with rfl | hlt
          · exact hsame
          · exact hbits j hlt hj'
        · exact fun hbits j hj hj' => hbits j (by omega) hj'
    · have hshort : (q.drop (h + 2 * i)).length < 2 := by
        rw [List.length_drop]
        omega
      have hfail : readBits tol p oneSpace zeroSpace (k + 1) i data (q.drop (h + 2 * i)) = none := by
        match q.drop (h + 2 * i), hshort with
        | [], _ => rfl
        | [_], _ => rfl
      rw [hfail]
      constructor
      · nofun
      · rintro ⟨hle, _⟩
        omega

/-- All bits of a frame are read, and make the word that sends them. -/
theorem readBits_all_iff {h d : Nat} {q2 : List Nat} (hh : h ≤ q.length) :
    readBits tol p oneSpace zeroSpace p.nbits 0 0 (q.drop h) = some (d, q2) ↔
      h + 2 * p.nbits ≤ q.length ∧ q.drop (h + 2 * p.nbits) = q2 ∧ d < 2 ^ p.nbits ∧
      ∀ i, i < p.nbits →
        cellAt tol p.oneMark oneSpace (h + 2 * i) q = bitSent p d p.nbits i ∧
        cellAt tol p.zeroMark zeroSpace (h + 2 * i) q = !bitSent p d p.nbits i := by
  have hbits := readBits_drop_iff (tol := tol) (p := p) (oneSpace := oneSpace) (zeroSpace := zeroSpace)
    (k := p.nbits) (i := 0) (data := 0) (d := d) (q2 := q2) hh
  have hcell {one zero sent : Bool} : one = sent ∧ zero = !sent ↔ one ≠ zero ∧ sent = one := by
    cases one <;> cases zero <;> simp
  rw [Nat.mul_zero, Nat.add_zero, Nat.zero_add, gatherBits_eq_iff] at hbits
  simp only [hbits, hcell, bitSent_eq_sentBit]
  refine and_congr_right fun _ => and_congr_right fun _ => ⟨?_, ?_⟩
  · rintro ⟨hdiffer, hd, hsent⟩
    exact ⟨hd, fun i hi => ⟨hdiffer i (Nat.zero_le i) hi, hsent i hi⟩⟩
  · rintro ⟨hd, hcells⟩
    exact ⟨fun i _ hi => (hcells i hi).1, hd, fun i hi => (hcells i hi).2⟩

theorem readFrame_eq_bind : readFrame tol p oneSpace zeroSpace q =
    (readHeader tol p q).bind fun q1 => (readBits tol p oneSpace zeroSpace p.nbits 0 0 q1).bind fun r =>
      if readTrailer tol p r.2 then some r.1 else none := by
  unfold readFrame
  cases readHeader tol p q with
  | none => rfl
  | some q1 =>
    simp only [Option.bind_some]
    cases readBits tol p oneSpace zeroSpace p.nbits 0 0 q1 <;> rfl

/-- The sequences R255 accepts, and the word read from them. -/
theorem readFrame_eq_some_iff {d h k : Nat} (hh : h = headerLength p) (hk : k = h + 2 * p.nbits) :
    readFrame tol p oneSpace zeroSpace q = some d ↔
      q.length = k + trailerLength p ∧ d < 2 ^ p.nbits ∧
      (p.headerMark ≠ 0 → cellAt tol p.headerMark p.headerSpace 0 q = true) ∧
      (∀ i, i < p.nbits →
        cellAt tol p.oneMark oneSpace (h + 2 * i) q = bitSent p d p.nbits i ∧
        cellAt tol p.zeroMark zeroSpace (h + 2 * i) q = !bitSent p d p.nbits i) ∧
      (p.trailerMark ≠ 0 → near tol (q.getD k 0) p.trailerMark = true) := by
  have htrailer (hle : k ≤ q.length) : readTrailer tol p (q.drop k) = true ↔
      q.length = k + trailerLength p ∧ (p.trailerMark ≠ 0 → near tol (q.getD k 0) p.trailerMark = true) := by
    rw [readTrailer_iff, List.length_drop, getD_drop, Nat.add_zero]
    exact and_congr_left fun _ => by omega
  subst hh
  simp only [readFrame_eq_bind, Option.bind_eq_some_iff, readHeader_eq_some_iff, Option.ite_none_right_eq_some,
    Option.some.injEq]
  constructor
  · rintro ⟨_, ⟨hlength, hheader, rfl⟩, ⟨_, _⟩, hread, hend, rfl⟩
    obtain ⟨hle, rfl, hd, hcells⟩ := (readBits_all_iff hlength).mp hread
    rw [← hk] at hle hend
    obtain ⟨hwhole, hlast⟩ := (htrailer hle).mp hend
    exact ⟨hwhole, hd, hheader, hcells, hlast⟩
  · rintro ⟨hwhole, hd, hheader, hcells, hlast⟩
    exact ⟨_, ⟨by omega, hheader, rfl⟩, (d, q.drop k),
      (readBits_all_iff (by omega)).mpr ⟨by omega, by rw [hk], hd, hcells⟩,
      (htrailer (by omega)).mpr ⟨hwhole, hlast⟩, rfl⟩

end

/-! ## The frames of the pulse builders as pairs of a mark and a space (R151, R152) -/

/-- The elements of mark and space pairs, in order. -/
def pulseSeq (pairs : List (Nat × Nat)) : TimingSeq := pairs.flatMap (fun e => [e.1, e.2])

/-- Mark and space of a bit; `oneSpace` is the space of a 1. -/
def pulseCell (p : ProtocolSpec) (oneSpace : Nat) (b : Bool) : Nat × Nat :=
  (if b then p.oneMark else p.zeroMark, if b then oneSpace else p.zeroSpace)

def headerPairs (p : ProtocolSpec) : List (Nat × Nat) :=
  if p.headerMark = 0 then [] else [(p.headerMark, p.headerSpace)]

def bitPairs (p : ProtocolSpec) (oneSpace data n : Nat) : List (Nat × Nat) :=
  (List.range n).map (fun i => pulseCell p oneSpace (bitSent p data n i))

/-- Without a space of its own, the trailer mark is followed by the pad of COALESCE. -/
def trailerPairs (p : ProtocolSpec) : List (Nat × Nat) :=
  if p.trailerMark = 0 then [] else [(p.trailerMark, if p.trailerSpace = 0 then 1 else p.trailerSpace)]

/-- The pairs of a whole frame. -/
def pulsePairs (p : ProtocolSpec) (oneSpace data n : Nat) : List (Nat × Nat) :=
  headerPairs p ++ bitPairs p oneSpace data n ++ trailerPairs p

/-- The builder of both pulse families: they differ in the space of a 1. -/
def famPulse (p : ProtocolSpec) (oneSpace data n : Nat) : TimingSeq :=
  coalesce (headerRuns p ++ bitRuns (fun _ b => chunks .mark (pulseCell p oneSpace b).1 ++
    chunks .space (pulseCell p oneSpace b).2) p.bitOrder data n ++ trailerRuns p)

theorem famPd_eq_famPulse (p : ProtocolSpec) (data n : Nat) : famPd p data n = famPulse p p.oneSpace data n := rfl

theorem famPw_eq_famPulse (p : ProtocolSpec) (data n : Nat) : famPw p data n = famPulse p p.zeroSpace data n := by
  simp only [famPulse, pulseCell, ite_self]
  rfl

/-- Every mark and space of the frame fits one element. -/
structure PulseFits (p : ProtocolSpec) (oneSpace : Nat) : Prop where
  oneMark : 1 ≤ p.oneMark ∧ p.oneMark ≤ 65535
  zeroMark : 1 ≤ p.zeroMark ∧ p.zeroMark ≤ 65535
  oneSpace : 1 ≤ oneSpace ∧ oneSpace ≤ 65535
  zeroSpace : 1 ≤ p.zeroSpace ∧ p.zeroSpace ≤ 65535
  header : p.headerMark ≠ 0 → p.headerMark ≤ 65535 ∧ 1 ≤ p.headerSpace ∧ p.headerSpace ≤ 65535
  trailerMark : p.trailerMark ≤ 65535
  trailerSpace : p.trailerSpace ≤ 65535

theorem pulseSeq_append (a b : List (Nat × Nat)) : pulseSeq (a ++ b) = pulseSeq a ++ pulseSeq b :=
  List.flatMap_append

theorem length_pulseSeq (pairs : List (Nat × Nat)) : (pulseSeq pairs).length = 2 * pairs.length := by
  induction pairs with
  | nil => rfl
  | cons e pairs ih =>
    rw [pulseSeq, List.flatMap_cons, List.length_append, ← pulseSeq, ih, List.length_cons]
    simp
    omega

theorem getD_pulseSeq {pairs : List (Nat × Nat)} {i : Nat} {e : Nat × Nat} (h : pairs[i]? = some e) :
    (pulseSeq pairs).getD (2 * i) 0 = e.1 ∧ (pulseSeq pairs).getD (2 * i + 1) 0 = e.2 := by
  induction pairs generalizing i with
  | nil => simp at h
  | cons f pairs ih =>
    cases i with
    | zero =>
      obtain rfl : f = e := by simpa using h
      exact ⟨rfl, rfl⟩
    | succ i => exact ih (i := i) (by simpa using h)

theorem cellAt_pulseSeq {pairs : List (Nat × Nat)} {i : Nat} {e : Nat × Nat} (h : pairs[i]? = some e)
    (tol mark space : Nat) : cellAt tol mark space (2 * i) (pulseSeq pairs) =
      (near tol e.1 mark && (decide (i + 1 = pairs.length) || near tol e.2 space)) := by
  have hlast : decide (2 * i + 2 = (pulseSeq pairs).length) = decide (i + 1 = pairs.length) := by
    rw [length_pulseSeq]
    exact decide_eq_decide.mpr (by omega)
  obtain ⟨hmark, hspace⟩ := getD_pulseSeq h
  rw [cellAt, hmark, hspace, hlast]

theorem length_headerPairs (p : ProtocolSpec) : 2 * (headerPairs p).length = headerLength p := by
  unfold headerPairs headerLength
  by_cases h : p.headerMark = 0 <;> simp [h]

theorem length_trailerPairs (p : ProtocolSpec) : 2 * (trailerPairs p).length = trailerLength p := by
  unfold trailerPairs trailerLength
  by_cases h : p.trailerMark = 0 <;> simp [h]

theorem length_bitPairs (p : ProtocolSpec) (oneSpace data n : Nat) : (bitPairs p oneSpace data n).length = n := by
  simp [bitPairs]

section
variable {p : ProtocolSpec} {oneSpace : Nat} (data n : Nat)

theorem length_pulsePairs : 2 * (pulsePairs p oneSpace data n).length = headerLength p + 2 * n + trailerLength p := by
  rw [pulsePairs, List.length_append, List.length_append, length_bitPairs, ← length_headerPairs, ← length_trailerPairs]
  omega

theorem pulsePairs_header (h : p.headerMark ≠ 0) :
    (pulsePairs p oneSpace data n)[0]? = some (p.headerMark, p.headerSpace) := by
  rw [pulsePairs, headerPairs, if_neg h]
  rfl

theorem pulsePairs_bit {i : Nat} (hi : i < n) : (pulsePairs p oneSpace data n)[(headerPairs p).length + i]? =
    some (pulseCell p oneSpace (bitSent p data n i)) := by
  rw [pulsePairs, List.append_assoc, List.getElem?_append_right (Nat.le_add_right _ _), Nat.add_sub_cancel_left,
    List.getElem?_append_left (by rwa [length_bitPairs]), bitPairs, List.getElem?_map, List.getElem?_range hi,
    Option.map_some]

theorem pulsePairs_trailer (h : p.trailerMark ≠ 0) :
    ∃ space, (pulsePairs p oneSpace data n)[(headerPairs p).length + n]? = some (p.trailerMark, space) := by
  refine ⟨if p.trailerSpace = 0 then 1 else p.trailerSpace, ?_⟩
  rw [pulsePairs, List.getElem?_append_right (by rw [List.length_append, length_bitPairs]), List.length_append,
    length_bitPairs, Nat.sub_self, trailerPairs, if_neg h]
  rfl

end

/-- The runs of mark and space pairs. -/
def pairRuns (pairs : List (Nat × Nat)) : List Run :=
  pairs.flatMap (fun e => chunks .mark e.1 ++ chunks .space e.2)

/-- Both elements of a pair are in range. -/
def PairFits (e : Nat × Nat) : Prop := (1 ≤ e.1 ∧ e.1 ≤ 65535) ∧ 1 ≤ e.2 ∧ e.2 ≤ 65535

theorem mem_pulseSeq_range {pairs : List (Nat × Nat)} (h : ∀ e ∈ pairs, PairFits e) :
    ∀ d ∈ pulseSeq pairs, 1 ≤ d ∧ d ≤ 65535 := by
  intro d hd
  obtain ⟨e, he, hd⟩ := List.mem_flatMap.mp hd
  obtain ⟨hmark, hspace⟩ := h e he
  rcases List.mem_pair.mp hd with rfl | rfl
  · exact hmark
  · exact hspace

/-- After whole pairs a mark begins again. -/
theorem runsFrom_pulseSeq_append {pairs : List (Nat × Nat)} (h : ∀ e ∈ pairs, PairFits e) (l : List Nat) :
    runsFrom .mark (pulseSeq pairs ++ l) = pairRuns pairs ++ runsFrom .mark l := by
  induction pairs with
  | nil => rfl
  | cons e pairs ih =>
    obtain ⟨⟨hmark, hspace⟩, hpairs⟩ := List.forall_mem_cons.mp h
    rw [pairRuns, List.flatMap_cons, List.append_assoc, ← pairRuns, ← ih hpairs, chunks_of_range .mark hmark,
      chunks_of_range .space hspace]
    rfl

theorem padSeq_append_of_even {a : List Nat} (ha : a.length % 2 = 0) (b : List Nat) :
    padSeq (a ++ b) = a ++ padSeq b := by
  have hodd : (a ++ b).length % 2 = 1 ↔ b.length % 2 = 1 := by
    rw [List.length_append]
    omega
  simp only [padSeq, hodd]
  split
  · exact List.append_assoc ..
  · rfl

section
variable {p : ProtocolSpec} {oneSpace : Nat} (fits : PulseFits p oneSpace)
include fits

theorem headerRuns_eq_pairRuns : headerRuns p = pairRuns (headerPairs p) ∧ ∀ e ∈ headerPairs p, PairFits e := by
  unfold headerRuns headerPairs
  split
  · exact ⟨rfl, nofun⟩
  · next hmark =>
    obtain ⟨hlong, hspace⟩ := fits.header hmark
    refine ⟨(List.flatMap_singleton ..).symm, fun e he => ?_⟩
    rw [List.mem_singleton.mp he]
    exact ⟨⟨Nat.pos_of_ne_zero hmark, hlong⟩, hspace⟩

theorem pairFits_pulseCell (b : Bool) : PairFits (pulseCell p oneSpace b) := by
  cases b
  case false => exact ⟨fits.zeroMark, fits.zeroSpace⟩
  case true => exact ⟨fits.oneMark, fits.oneSpace⟩

theorem trailerRuns_eq_runsFrom : ∃ l, trailerRuns p = runsFrom .mark l ∧ (∀ d ∈ l, 1 ≤ d ∧ d ≤ 65535) ∧
    padSeq l = pulseSeq (trailerPairs p) := by
  unfold trailerRuns trailerPairs
  by_cases hmark : p.trailerMark = 0
  · exact ⟨[], by simp [hmark, runsFrom], nofun, by simp [hmark, padSeq, pulseSeq]⟩
  · have hmarkRange : 1 ≤ p.trailerMark ∧ p.trailerMark ≤ 65535 := ⟨Nat.pos_of_ne_zero hmark, fits.trailerMark⟩
    by_cases hspace : p.trailerSpace = 0
    · refine ⟨[p.trailerMark], ?_, by simpa using hmarkRange, ?_⟩
      · simp [hmark, hspace, runsFrom, chunks_of_range .mark hmarkRange]
      · simp [hmark, hspace, padSeq, pulseSeq]
    · have hspaceRange : 1 ≤ p.trailerSpace ∧ p.trailerSpace ≤ 65535 := ⟨Nat.pos_of_ne_zero hspace, fits.trailerSpace⟩
      refine ⟨[p.trailerMark, p.trailerSpace], ?_, by simpa using ⟨hmarkRange, hspaceRange⟩, ?_⟩
      · simp [hmark, hspace, runsFrom, opposite, chunks_of_range .mark hmarkRange, chunks_of_range .space hspaceRange]
      · simp [hmark, hspace, padSeq, pulseSeq]

/-- COALESCE leaves the pairs of a frame that fits as they are, and pads a trailer mark without a space (R131). -/
theorem famPulse_eq_pulseSeq (data n : Nat) : famPulse p oneSpace data n = pulseSeq (pulsePairs p oneSpace data n) := by
  obtain ⟨hheader, hheaderFits⟩ := headerRuns_eq_pairRuns fits
  obtain ⟨l, htrailer, hrange, hpad⟩ := trailerRuns_eq_runsFrom fits
  have hbits : bitRuns (fun _ b => chunks .mark (pulseCell p oneSpace b).1 ++ chunks .space (pulseCell p oneSpace b).2)
      p.bitOrder data n = pairRuns (bitPairs p oneSpace data n) := by
    simp only [bitRuns, pairRuns, bitPairs, List.flatMap_map, bitSent_eq_sentBit]
  have hfits : ∀ e ∈ headerPairs p ++ bitPairs p oneSpace data n, PairFits e := by
    intro e he
    rcases List.mem_append.mp he with he | he
    · exact hheaderFits e he
    · obtain ⟨i, _, rfl⟩ := List.mem_map.mp he
      exact pairFits_pulseCell fits _
  have hlength : (pulseSeq (headerPairs p ++ bitPairs p oneSpace data n)).length % 2 = 0 := by
    rw [length_pulseSeq]
    omega
  calc famPulse p oneSpace data n
      = coalesce (pairRuns (headerPairs p ++ bitPairs p oneSpace data n) ++ runsFrom .mark l) := by
        rw [famPulse, hheader, hbits, htrailer, pairRuns, pairRuns, ← List.flatMap_append, ← pairRuns]
    _ = padSeq (pulseSeq (headerPairs p ++ bitPairs p oneSpace data n) ++ l) := by
        rw [← runsFrom_pulseSeq_append hfits, coalesce_runsFrom]
        intro d hd
        rcases List.mem_append.mp hd with hd | hd
        · exact mem_pulseSeq_range hfits d hd
        · exact hrange d hd
    _ = pulseSeq (pulsePairs p oneSpace data n) := by
        rw [padSeq_append_of_even hlength, hpad, ← pulseSeq_append, pulsePairs]

/-! ## The decoders invert the builders -/

/-- The cells of the two bits are told apart at the tolerance: by their marks, or by mark and space together when a
trailer follows, so that every bit's space is compared. -/
abbrev CellsApart (tol : Nat) (p : ProtocolSpec) (oneSpace : Nat) : Prop :=
  (near tol p.oneMark p.zeroMark = false ∧ near tol p.zeroMark p.oneMark = false) ∨
  (p.trailerMark ≠ 0 ∧ ¬(near tol p.oneMark p.zeroMark = true ∧ near tol oneSpace p.zeroSpace = true) ∧
    ¬(near tol p.zeroMark p.oneMark = true ∧ near tol p.zeroSpace oneSpace = true))

omit fits in
/-- A cell is near its own bit's nominal values and not near the other's; `last` says that its space ends the frame. -/
theorem pulseCell_near {tol : Nat} (hapart : CellsApart tol p oneSpace) {last : Bool}
    (hlast : p.trailerMark ≠ 0 → last = false) (b : Bool) :
    (near tol (pulseCell p oneSpace b).1 p.oneMark && (last || near tol (pulseCell p oneSpace b).2 oneSpace)) = b ∧
    (near tol (pulseCell p oneSpace b).1 p.zeroMark && (last || near tol (pulseCell p oneSpace b).2 p.zeroSpace)) =
      !b := by
  rcases hapart with ⟨hone, hzero⟩ | ⟨htrailer, hone, hzero⟩
  · cases b <;> simp [pulseCell, near_self, hone, hzero]
  · rw [not_and, Bool.not_eq_true] at hone hzero
    cases b
    case false => simpa [pulseCell, near_self, hlast htrailer] using hzero
    case true => simpa [pulseCell, near_self, hlast htrailer] using hone

theorem readFrame_famPulse {tol : Nat} (hapart : CellsApart tol p oneSpace) (data : Nat) :
    readFrame tol p oneSpace p.zeroSpace (famPulse p oneSpace data p.nbits) = some (data % 2 ^ p.nbits) := by
  have hlength := length_pulsePairs (p := p) (oneSpace := oneSpace) data p.nbits
  have hheader := length_headerPairs p
  rw [famPulse_eq_pulseSeq fits, readFrame_eq_some_iff rfl rfl]
  refine ⟨by rw [length_pulseSeq, hlength], Nat.mod_lt _ (Nat.two_pow_pos _), fun hmark => ?header,
    fun i hi => ?bit, fun hmark => ?trailer⟩
  case header => simp [cellAt_pulseSeq (pulsePairs_header data p.nbits hmark), near_self]
  case bit =>
    have hplace : headerLength p + 2 * i = 2 * ((headerPairs p).length + i) := by omega
    have hlast : p.trailerMark ≠ 0 →
        decide ((headerPairs p).length + i + 1 = (pulsePairs p oneSpace data p.nbits).length) = false := by
      intro hmark
      rw [trailerLength, if_pos hmark] at hlength
      exact decide_eq_false (by omega)
    rw [hplace, cellAt_pulseSeq (pulsePairs_bit data p.nbits hi), cellAt_pulseSeq (pulsePairs_bit data p.nbits hi),
      bitSent_eq_sentBit p (data % _), sentBit_mod p.bitOrder data hi, ← bitSent_eq_sentBit]
    exact pulseCell_near hapart hlast _
  case trailer =>
    obtain ⟨space, htrailer⟩ := pulsePairs_trailer (oneSpace := oneSpace) data p.nbits hmark
    have hplace : headerLength p + 2 * p.nbits = 2 * ((headerPairs p).length + p.nbits) := by omega
    rw [hplace, (getD_pulseSeq htrailer).1, near_self]

end

/-- The last bit of a frame without a trailer is told by its mark alone, so shared marks tell nothing. -/
theorem decPd_of_shared_mark (tol : Nat) {p : ProtocolSpec} (q : List Nat) (htrailer : p.trailerMark = 0)
    (hnbits : p.nbits ≠ 0) (hmarks : p.oneMark = p.zeroMark) : decPd tol p q = none := by
  refine Option.eq_none_iff_forall_ne_some.mpr fun d hd => ?_
  obtain ⟨hlength, _, _, hbits, _⟩ := (readFrame_eq_some_iff rfl rfl).mp hd
  obtain ⟨hone, hzero⟩ := hbits (p.nbits - 1) (by omega)
  have hlast : headerLength p + 2 * (p.nbits - 1) + 2 = q.length := by
    rw [hlength, trailerLength, if_neg (not_not_intro htrailer)]
    omega
  rw [cellAt, decide_eq_true hlast, Bool.true_or, Bool.and_true] at hone hzero
  rw [hmarks, hzero] at hone
  exact Bool.not_ne_self _ hone

/-- Settles O47: what the walk accepts (`readFrame_eq_some_iff`), and that it reads back what the builders write
(`readFrame_famPulse`). -/
theorem pulseDecodersInvertBuilders : Obligations.PulseDecodersInvertBuilders := by
  refine ⟨near_iff, ?accepts, fun tol p q => decPd_of_shared_mark tol q, ?inverts⟩
  case accepts =>
    rintro tol p q d oneSpace h k dec (⟨rfl, rfl⟩ | ⟨rfl, rfl⟩) hh hk
    · exact readFrame_eq_some_iff hh hk
    · exact readFrame_eq_some_iff hh hk
  case inverts =>
    intro tol p data hone hone' hzero hzero' hspace hspace' hheader htrailer htrailer'
    refine ⟨fun hmark hos hos' hapart hapart' => ?_, fun hapart hapart' => ?_⟩
    · rw [famPd_eq_famPulse]
      exact readFrame_famPulse ⟨⟨hone, hone'⟩, ⟨hzero, hzero'⟩, ⟨hos, hos'⟩, ⟨hspace, hspace'⟩, hheader, htrailer,
        htrailer'⟩ (.inr ⟨hmark, hapart, hapart'⟩) data
    · rw [famPw_eq_famPulse]
      exact readFrame_famPulse ⟨⟨hone, hone'⟩, ⟨hzero, hzero'⟩, ⟨hspace, hspace'⟩, ⟨hspace, hspace'⟩, hheader, htrailer,
        htrailer'⟩ (.inl ⟨hapart, hapart'⟩) data

end Sys2Proof.Machine
end

section
/-! PROOFS. The biphase decoder: the waveform it samples, the sequences it accepts, and that it inverts its builder
(O48). -/

namespace Sys2Proof.Machine

/-! ## The level of a waveform (45_normalizer_decode.md R257) -/

/-- The polarity of the element `k` places on. -/
def polAt (p : Polarity) (k : Nat) : Polarity := if k % 2 = 0 then p else opposite p

theorem polAt_succ (p : Polarity) (k : Nat) : polAt p (k + 1) = polAt (opposite p) k := by
  unfold polAt
  by_cases h : k % 2 = 0
  · rw [if_neg (by omega), if_pos h]
  · rw [if_pos (by omega), if_neg h]
    cases p <;> rfl

theorem polAt_mark_iff (k : Nat) : polAt .mark k = .mark ↔ k % 2 = 0 := by
  simp [polAt, opposite]

theorem level2From_cons (p : Polarity) (d : Nat) (rest : List Nat) (t2 : Nat) :
    level2From p (d :: rest) t2 = if t2 < 2 * d then p else level2From (opposite p) rest (t2 - 2 * d) := by
  cases p <;> rfl

theorem level2From_eq_mark_iff (p : Polarity) (q : List Nat) (t2 : Nat) : level2From p q t2 = .mark ↔
    ∃ k, polAt p k = .mark ∧ k < q.length ∧ 2 * (q.take k).sum ≤ t2 ∧ t2 < 2 * (q.take (k + 1)).sum := by
  induction q generalizing p t2 with
  | nil => simp [level2From]
  | cons d q ih =>
    rw [level2From_cons]
    split
    · next hinside =>
      constructor
      · exact fun hp => ⟨0, hp, by simp, by simp, by simpa using hinside⟩
      · rintro ⟨k, hk, _, hstart, _⟩
        cases k with
        | zero => exact hk
        | succ k =>
          rw [List.take_succ_cons, List.sum_cons] at hstart
          omega
    · next hafter =>
      rw [ih]
      constructor
      · rintro ⟨k, hk, hlength, hstart, hend⟩
        refine ⟨k + 1, by rwa [polAt_succ], by simpa using hlength, ?_, ?_⟩
        · rw [List.take_succ_cons, List.sum_cons]
          omega
        · rw [List.take_succ_cons, List.sum_cons]
          omega
      · rintro ⟨k, hk, hlength, hstart, hend⟩
        cases k with
        | zero => exact absurd (by simpa using hend) hafter
        | succ k =>
          rw [List.take_succ_cons, List.sum_cons] at hstart hend
          exact ⟨k, by rwa [← polAt_succ], by simpa using hlength, by omega, by omega⟩

/-- The level is a mark exactly inside the marks, the elements at even positions. -/
theorem level2_eq_mark_iff (q : List Nat) (t2 : Nat) : level2 q t2 = .mark ↔
    ∃ k, k % 2 = 0 ∧ k < q.length ∧ 2 * (q.take k).sum ≤ t2 ∧ t2 < 2 * (q.take (k + 1)).sum := by
  simp only [level2, level2From_eq_mark_iff, polAt_mark_iff]

/-- Every mark begins before the end of the last bit. -/
theorem marksBefore_iff (t : Nat) (p : Polarity) (cum : Nat) (q : List Nat) : marksBefore t p cum q = true ↔
    ∀ k, polAt p k = .mark → k < q.length → cum + (q.take k).sum < t := by
  induction q generalizing p cum with
  | nil => simp [marksBefore]
  | cons d q ih =>
    have hcons : marksBefore t p cum (d :: q) = true ↔
        (p = .mark → cum < t) ∧ marksBefore t (opposite p) (cum + d) q = true := by
      cases p <;> simp [marksBefore, opposite]
    rw [hcons, ih]
    constructor
    · rintro ⟨hfirst, hrest⟩ k hk hlength
      cases k with
      | zero => exact hfirst hk
      | succ k =>
        rw [List.take_succ_cons, List.sum_cons, ← Nat.add_assoc]
        exact hrest k (by rwa [← polAt_succ]) (by simpa using hlength)
    · intro h
      refine ⟨fun hp => h 0 hp (by simp), fun k hk hlength => ?_⟩
      have := h (k + 1) (by rwa [polAt_succ]) (by simpa using hlength)
      rwa [List.take_succ_cons, List.sum_cons, ← Nat.add_assoc] at this

/-! ## The grid of bits (R257) -/

theorem bitStart_zero (p : ProtocolSpec) (t0 : Nat) : bitStart p t0 0 = t0 := by
  unfold bitStart
  cases p.doubleIdx <;> simp

/-- Each bit is two half-periods long, the doubled one four units. -/
theorem bitStart_succ (p : ProtocolSpec) (t0 i : Nat) :
    bitStart p t0 (i + 1) = bitStart p t0 i + 2 * halfPeriod p i := by
  have hunits : 2 * p.unit * (i + 1) = 2 * p.unit * i + 2 * p.unit := by ring
  unfold bitStart halfPeriod
  cases p.doubleIdx with
  | none =>
    simp only [hunits, reduceCtorEq, if_false]
    omega
  | some j =>
    simp only [hunits, Option.some.injEq]
    split_ifs <;> omega

section
variable {p : ProtocolSpec} {q : List Nat}

/-- The bit the decoder reads at position `i` of a frame whose first bit begins at `t0`. -/
def sampledBit (p : ProtocolSpec) (q : List Nat) (t0 i : Nat) : Bool :=
  decide (level2 q (2 * bitStart p t0 i + halfPeriod p i) = .mark) == p.oneActiveFirst

/-- The two halves of bit `i` have different levels in their middle. -/
def HalvesDiffer (p : ProtocolSpec) (q : List Nat) (t0 i : Nat) : Prop :=
  level2 q (2 * bitStart p t0 i + halfPeriod p i) ≠ level2 q (2 * bitStart p t0 i + 3 * halfPeriod p i)

theorem sampleBits_eq_some_iff {t0 k i data d t : Nat} :
    sampleBits p q k i (bitStart p t0 i) data = some (d, t) ↔
      (∀ j, i ≤ j → j < i + k → HalvesDiffer p q t0 j) ∧
      gatherBits p.bitOrder p.nbits (sampledBit p q t0) k i data = d ∧ bitStart p t0 (i + k) = t := by
  induction k generalizing i data with
  | zero =>
    have hnone : ∀ j, i ≤ j → ¬j < i + 0 := by omega
    simp only [sampleBits, gatherBits, Option.some.injEq, Prod.mk.injEq, Nat.add_zero]
    exact ⟨fun h => ⟨fun j hj hj' => absurd hj' (hnone j hj), h⟩, And.right⟩
  | succ k ih =>
    have hcount : i + (k + 1) = i + 1 + k := by omega
    have hnext := bitStart_succ p t0 i
    rw [sampleBits, gatherBits, hcount]
    simp only [← halfPeriod.eq_def, ← hnext]
    by_cases hdiffer : HalvesDiffer p q t0 i
    · have hfirst : (∀ j, i ≤ j → j < i + 1 + k → HalvesDiffer p q t0 j) ↔
          ∀ j, i + 1 ≤ j → j < i + 1 + k → HalvesDiffer p q t0 j := by
        refine ⟨fun h j hj => h j (by omega), fun h j hj hj' => ?_⟩
        rcases hj.eq_or_lt with rfl | hlt
        · exact hdiffer
        · exact h j hlt hj'
      rw [if_neg hdiffer, hfirst, ← ih]
      rfl
    · rw [if_pos (not_not.mp hdiffer)]
      exact ⟨nofun, fun ⟨h, _⟩ => absurd (h i le_rfl (by omega)) hdiffer⟩

theorem biphaseStart_eq_some_iff {tol t0 : Nat} : biphaseStart tol p q = some t0 ↔
    (p.headerMark = 0 → t0 = 0) ∧
    (p.headerMark ≠ 0 → ∃ m rest, q = m :: rest ∧ near tol m p.headerMark = true ∧ t0 = m + p.headerSpace) := by
  unfold biphaseStart
  by_cases hmark : p.headerMark = 0
  · simp only [hmark, if_true, Option.some.injEq, forall_const, ne_eq, not_true_eq_false, false_implies, and_true]
    exact eq_comm
  · cases q with
    | nil => simp [hmark]
    | cons m rest =>
      simp only [hmark, if_false, Option.ite_none_right_eq_some, Option.some.injEq, false_implies, true_and, ne_eq,
        not_false_eq_true, forall_const]
      exact ⟨fun ⟨hnear, ht⟩ => ⟨m, rest, rfl, hnear, ht.symm⟩, fun ⟨_, _, hq, hnear, ht⟩ => by
        obtain ⟨rfl, rfl⟩ := List.cons.inj hq
        exact ⟨hnear, ht.symm⟩⟩

theorem decBiphase_eq_bind (tol : Nat) : decBiphase tol p q =
    (biphaseStart tol p q).bind fun t0 => (sampleBits p q p.nbits 0 t0 0).bind fun r =>
      if marksBefore r.2 .mark 0 q then some r.1 else none := by
  unfold decBiphase
  cases biphaseStart tol p q with
  | none => rfl
  | some t0 =>
    simp only [Option.bind_some]
    cases sampleBits p q p.nbits 0 t0 0 <;> rfl

theorem eq_sampledBit_iff (b : Bool) (t0 i : Nat) : b = sampledBit p q t0 i ↔
    (b = p.oneActiveFirst ↔ level2 q (2 * bitStart p t0 i + halfPeriod p i) = .mark) := by
  unfold sampledBit
  by_cases h : level2 q (2 * bitStart p t0 i + halfPeriod p i) = .mark <;>
    cases b <;> cases p.oneActiveFirst <;> simp [h]

/-- The sequences R257 accepts, and the word read from them. -/
theorem decBiphase_eq_some_iff {tol d : Nat} : decBiphase tol p q = some d ↔ ∃ t0,
    (p.headerMark = 0 → t0 = 0) ∧
    (p.headerMark ≠ 0 → ∃ m rest, q = m :: rest ∧ near tol m p.headerMark = true ∧ t0 = m + p.headerSpace) ∧
    d < 2 ^ p.nbits ∧
    (∀ i, i < p.nbits → HalvesDiffer p q t0 i ∧ bitSent p d p.nbits i = sampledBit p q t0 i) ∧
    (∀ k, k % 2 = 0 → k < q.length → (q.take k).sum < bitStart p t0 p.nbits) := by
  have hsample {t0 t : Nat} : sampleBits p q p.nbits 0 t0 0 = some (d, t) ↔
      d < 2 ^ p.nbits ∧ (∀ i, i < p.nbits → HalvesDiffer p q t0 i ∧ bitSent p d p.nbits i = sampledBit p q t0 i) ∧
        bitStart p t0 p.nbits = t := by
    have hbits := sampleBits_eq_some_iff (p := p) (q := q) (t0 := t0) (k := p.nbits) (i := 0) (data := 0)
      (d := d) (t := t)
    rw [bitStart_zero, Nat.zero_add, gatherBits_eq_iff] at hbits
    simp only [hbits, bitSent_eq_sentBit]
    constructor
    · rintro ⟨hdiffer, ⟨hd, hsent⟩, ht⟩
      exact ⟨hd, fun i hi => ⟨hdiffer i (Nat.zero_le i) hi, hsent i hi⟩, ht⟩
    · rintro ⟨hd, hcells, ht⟩
      exact ⟨fun i _ hi => (hcells i hi).1, ⟨hd, fun i hi => (hcells i hi).2⟩, ht⟩
  simp only [decBiphase_eq_bind, Option.bind_eq_some_iff, biphaseStart_eq_some_iff, Option.ite_none_right_eq_some,
    Option.some.injEq]
  refine exists_congr fun t0 => ?_
  constructor
  · rintro ⟨⟨hzero, hheader⟩, ⟨_, t⟩, hread, hmarks, rfl⟩
    obtain ⟨hd, hbits, rfl⟩ := hsample.mp hread
    refine ⟨hzero, hheader, hd, hbits, ?_⟩
    simpa only [marksBefore_iff, polAt_mark_iff, Nat.zero_add] using hmarks
  · rintro ⟨hzero, hheader, hd, hbits, hmarks⟩
    refine ⟨⟨hzero, hheader⟩, (d, bitStart p t0 p.nbits), hsample.mpr ⟨hd, hbits, rfl⟩, ?_, rfl⟩
    simpa only [marksBefore_iff, polAt_mark_iff, Nat.zero_add] using hmarks

end

/-! ## The waveform, microsecond by microsecond -/

/-- The level in each microsecond of a run list. -/
def microLevels (runs : List Run) : List Polarity := runs.flatMap (fun r => List.replicate r.dur r.pol)

theorem microLevels_cons (r : Run) (runs : List Run) :
    microLevels (r :: runs) = List.replicate r.dur r.pol ++ microLevels runs := List.flatMap_cons

theorem microLevels_append (a b : List Run) : microLevels (a ++ b) = microLevels a ++ microLevels b :=
  List.flatMap_append

/-- The decoder samples the waveform of the sequence, idle after its end. -/
theorem level2From_eq_getD (p : Polarity) (q : List Nat) (t2 : Nat) :
    level2From p q t2 = (microLevels (runsFrom p q)).getD (t2 / 2) .space := by
  induction q generalizing p t2 with
  | nil => rfl
  | cons d q ih =>
    rw [level2From_cons, ih]
    simp only [runsFrom, microLevels_cons]
    split
    · next hinside =>
      rw [List.getD_append _ _ _ _ (by rw [List.length_replicate]; omega), List.getD_replicate _ (by omega)]
    · next hafter =>
      rw [List.getD_append_right _ _ _ _ (by rw [List.length_replicate]; omega), List.length_replicate]
      congr 1
      omega

theorem level2_eq_getD (q : List Nat) (t2 : Nat) : level2 q t2 = (microLevels (runsOf q)).getD (t2 / 2) .space :=
  level2From_eq_getD .mark q t2

theorem runsFrom_append (p : Polarity) (a b : List Nat) :
    runsFrom p (a ++ b) = runsFrom p a ++ runsFrom (polAt p a.length) b := by
  induction a generalizing p with
  | nil => rfl
  | cons d a ih => rw [List.cons_append, runsFrom, ih, runsFrom, List.length_cons, polAt_succ, List.cons_append]

theorem padSeq_eq_append (q : List Nat) : ∃ pad, padSeq q = q ++ pad ∧ pad.length ≤ 1 := by
  unfold padSeq
  split
  · exact ⟨_, rfl, le_rfl⟩
  · exact ⟨[], (List.append_nil q).symm, Nat.zero_le 1⟩

/-- The pad is idle, as the line is after the sequence. -/
theorem getD_microLevels_padSeq (q : List Nat) (i : Nat) :
    (microLevels (runsOf (padSeq q))).getD i .space = (microLevels (runsOf q)).getD i .space := by
  unfold padSeq
  split
  · next hodd =>
    have hpad : runsFrom (polAt .mark q.length) [1] = [{ pol := .space, dur := 1 }] := by
      rw [polAt, if_neg (by omega)]
      rfl
    rw [runsOf, runsFrom_append, hpad, microLevels_append, ← runsOf]
    rcases Nat.lt_or_ge i (microLevels (runsOf q)).length with hi | hi
    · rw [List.getD_append _ _ _ _ hi]
    · rw [List.getD_append_right _ _ _ _ hi, List.getD_eq_default _ _ hi]
      cases i - (microLevels (runsOf q)).length <;> rfl
  · rfl

/-! ## Neighbouring runs of one polarity joined (40_primitives.md R131) -/

/-- A run put before a list, joined with the first one there if it has its polarity; COALESCE's cap is left out. -/
def joinRun (r : Run) : List Run → List Run
  | [] => [r]
  | a :: more => if r.pol = a.pol then { pol := r.pol, dur := r.dur + a.dur } :: more else r :: a :: more

/-- Neighbouring runs of one polarity joined. -/
def mergeRuns (runs : List Run) : List Run := runs.foldr joinRun []

theorem mergeRuns_cons (r : Run) (runs : List Run) : mergeRuns (r :: runs) = joinRun r (mergeRuns runs) := rfl

/-- The first run after joining has the polarity of the run put first and holds it whole. -/
theorem joinRun_eq_cons (r : Run) (l : List Run) :
    ∃ d more, joinRun r l = { pol := r.pol, dur := d } :: more ∧ r.dur ≤ d := by
  cases l with
  | nil => exact ⟨r.dur, [], rfl, le_rfl⟩
  | cons a more =>
    rw [joinRun]
    split
    · exact ⟨_, more, rfl, Nat.le_add_right ..⟩
    · exact ⟨r.dur, a :: more, rfl, le_rfl⟩

theorem joinRun_of_ne {r x : Run} (h : r.pol ≠ x.pol) (l : List Run) : joinRun r (joinRun x l) = r :: joinRun x l := by
  obtain ⟨d, more, heq, _⟩ := joinRun_eq_cons x l
  rw [heq]
  exact if_neg h

theorem joinRun_of_same {r x : Run} (h : r.pol = x.pol) (l : List Run) :
    joinRun r (joinRun x l) = joinRun { pol := r.pol, dur := r.dur + x.dur } l := by
  obtain ⟨p, d⟩ := r
  obtain ⟨_, e⟩ := x
  obtain rfl : p = _ := h
  cases l with
  | nil => exact if_pos rfl
  | cons a more => by_cases ha : p = a.pol <;> simp [joinRun, ha, Nat.add_assoc]

theorem microLevels_joinRun (r : Run) (l : List Run) :
    microLevels (joinRun r l) = List.replicate r.dur r.pol ++ microLevels l := by
  cases l with
  | nil => rfl
  | cons a more =>
    rw [joinRun]
    split
    · next h => rw [microLevels_cons, microLevels_cons, List.replicate_add, h, List.append_assoc]
    · rw [microLevels_cons]

/-- Joining keeps the waveform. -/
theorem microLevels_mergeRuns (runs : List Run) : microLevels (mergeRuns runs) = microLevels runs := by
  induction runs with
  | nil => rfl
  | cons r runs ih => rw [mergeRuns_cons, microLevels_joinRun, ih, microLevels_cons]

theorem length_joinRun_le (r : Run) (l : List Run) : (joinRun r l).length ≤ l.length + 1 := by
  cases l with
  | nil => exact le_rfl
  | cons a more =>
    rw [joinRun]
    split <;> simp

theorem length_mergeRuns_le (runs : List Run) : (mergeRuns runs).length ≤ runs.length := by
  induction runs with
  | nil => exact le_rfl
  | cons r runs ih =>
    rw [mergeRuns_cons, List.length_cons]
    exact (length_joinRun_le r _).trans (Nat.succ_le_succ ih)

/-- No two neighbours of one polarity are left. -/
theorem isChain_mergeRuns (runs : List Run) : (mergeRuns runs).IsChain (fun a b => a.pol ≠ b.pol) := by
  induction runs with
  | nil => exact .nil
  | cons r runs ih =>
    rw [mergeRuns_cons]
    cases hrest : mergeRuns runs with
    | nil => exact .singleton r
    | cons a more =>
      rw [hrest] at ih
      rw [joinRun]
      split
      · next h =>
        cases more with
        | nil => exact .singleton _
        | cons b more =>
          rw [List.isChain_cons_cons] at ih ⊢
          exact ⟨h ▸ ih.1, ih.2⟩
      · next h => exact List.isChain_cons_cons.mpr ⟨h, ih⟩

/-- Runs that alternate are the runs of their durations. -/
theorem eq_runsFrom_of_isChain {l : List Run} (h : l.IsChain (fun a b => a.pol ≠ b.pol)) {p : Polarity}
    (hp : ∀ r ∈ l.head?, r.pol = p) : l = runsFrom p (l.map (·.dur)) := by
  induction l generalizing p with
  | nil => rfl
  | cons a l ih =>
    obtain rfl := hp a rfl
    rw [List.map_cons, runsFrom]
    refine congrArg _ (ih (List.IsChain.tail h) fun b hb => ?_)
    obtain ⟨more, rfl⟩ := List.head?_eq_some_iff.mp hb
    have hne := (List.isChain_cons_cons.mp h).1
    cases ha : a.pol <;> cases hb : b.pol <;> simp_all [opposite]

/-! ## COALESCE of runs that stay below its cap (R131) -/

/-- The turns of COALESCE join the runs, as long as no joined run exceeds the cap. -/
theorem foldl_coalesceStep_eq_mergeRuns {runs : List Run} (hdur : ∀ r ∈ runs, r.dur ≠ 0) (last : Run)
    (before : List Run)
    (hcap : ∀ r ∈ joinRun last (mergeRuns runs), r.dur ≤ 65535) :
    runs.foldl coalesceStep (last :: before) = (joinRun last (mergeRuns runs)).reverse ++ before := by
  induction runs generalizing last before with
  | nil => rfl
  | cons r runs ih =>
    obtain ⟨hr, hruns⟩ := List.forall_mem_cons.mp hdur
    rw [mergeRuns_cons] at hcap ⊢
    by_cases hpol : last.pol = r.pol
    · rw [joinRun_of_same hpol] at hcap ⊢
      obtain ⟨d, more, heq, hle⟩ := joinRun_eq_cons { pol := last.pol, dur := last.dur + r.dur } (mergeRuns runs)
      have hsum : last.dur + r.dur ≤ 65535 := hle.trans (hcap { pol := last.pol, dur := d } (by rw [heq]; simp))
      rw [List.foldl_cons, ← ih hruns _ before hcap]
      congr 1
      simp [coalesceStep, hr, hpol, hsum]
    · rw [joinRun_of_ne hpol] at hcap ⊢
      obtain ⟨hlast, hrest⟩ := List.forall_mem_cons.mp hcap
      obtain ⟨d, more, heq, hle⟩ := joinRun_eq_cons r (mergeRuns runs)
      have hcapr : r.dur ≤ 65535 := hle.trans (hrest { pol := r.pol, dur := d } (by rw [heq]; simp))
      have hstep : coalesceStep (last :: before) r = r :: last :: before := by
        rw [coalesceStep_of_ne (out := last :: before) hpol hr, Nat.min_eq_right hcapr]
      rw [List.foldl_cons, hstep, ih hruns r _ hrest]
      simp

section
variable {d : Nat} {runs : List Run} (hdur : d ≠ 0 ∧ ∀ r ∈ runs, r.dur ≠ 0)
  (hcap : ∀ r ∈ mergeRuns ({ pol := .mark, dur := d } :: runs), r.dur ≤ 65535)
include hdur hcap

theorem coalesce_eq_mergeRuns : coalesce ({ pol := .mark, dur := d } :: runs) =
    padSeq ((mergeRuns ({ pol := .mark, dur := d } :: runs)).map (·.dur)) := by
  obtain ⟨e, more, heq, hle⟩ := joinRun_eq_cons { pol := .mark, dur := d } (mergeRuns runs)
  have hd : d ≤ 65535 := hle.trans (hcap { pol := .mark, dur := e } (by rw [mergeRuns_cons, heq]; simp))
  have hfirst : coalesceStep [] { pol := .mark, dur := d } = [{ pol := .mark, dur := d }] := by
    rw [coalesceStep_of_ne (out := []) (r := { pol := .mark, dur := d }) nofun hdur.1, Nat.min_eq_right hd]
  rw [coalesce, List.foldl_cons, hfirst, foldl_coalesceStep_eq_mergeRuns hdur.2 _ [] hcap, List.append_nil,
    List.reverse_reverse, mergeRuns_cons]

/-- COALESCE keeps the waveform of runs that begin with a mark and stay below its cap. -/
theorem level2_coalesce (t2 : Nat) : level2 (coalesce ({ pol := .mark, dur := d } :: runs)) t2 =
    (microLevels ({ pol := .mark, dur := d } :: runs)).getD (t2 / 2) .space := by
  have hmark : ∀ r ∈ (mergeRuns ({ pol := .mark, dur := d } :: runs)).head?, r.pol = .mark := by
    obtain ⟨e, more, heq, _⟩ := joinRun_eq_cons { pol := .mark, dur := d } (mergeRuns runs)
    rw [mergeRuns_cons, heq]
    rintro _ ⟨⟩
    rfl
  have hruns := eq_runsFrom_of_isChain (isChain_mergeRuns _) hmark
  rw [level2_eq_getD, coalesce_eq_mergeRuns hdur hcap, getD_microLevels_padSeq, runsOf, ← hruns, microLevels_mergeRuns]

end

/-! ## The runs of a biphase frame (41_encoder_families.md R153) -/

/-- Every half-period, alone or joined with its neighbour, and the header fit one element. -/
structure BiphaseFits (p : ProtocolSpec) : Prop where
  unit : 1 ≤ p.unit
  cap : p.headerSpace + 3 * p.unit ≤ 65535
  headerMark : p.headerMark ≤ 65535
  headerSpace : p.headerMark ≠ 0 → 1 ≤ p.headerSpace

/-- The polarity of the first half of a bit. -/
def firstHalf (p : ProtocolSpec) (b : Bool) : Polarity := if b = p.oneActiveFirst then .mark else .space

/-- The two halves of the bits at the positions `l`. -/
def halfRuns (p : ProtocolSpec) (bit : Nat → Bool) (l : List Nat) : List Run :=
  l.flatMap (fun i => [{ pol := firstHalf p (bit i), dur := halfPeriod p i },
    { pol := opposite (firstHalf p (bit i)), dur := halfPeriod p i }])

/-- The runs of a frame of `n` bits. -/
def biphaseRuns (p : ProtocolSpec) (bit : Nat → Bool) (n : Nat) : List Run :=
  (if p.headerMark = 0 then [] else [{ pol := .mark, dur := p.headerMark }, { pol := .space, dur := p.headerSpace }]) ++
    halfRuns p bit (List.range n)

theorem ne_opposite (p : Polarity) : p ≠ opposite p := by
  cases p <;> nofun

section
variable {p : ProtocolSpec}

theorem halfPeriod_le (i : Nat) : p.unit ≤ halfPeriod p i ∧ halfPeriod p i ≤ 2 * p.unit := by
  unfold halfPeriod
  split <;> omega

/-- Only one bit is doubled. -/
theorem halfPeriod_add_le {i j : Nat} (h : i ≠ j) : halfPeriod p i + halfPeriod p j ≤ 3 * p.unit := by
  unfold halfPeriod
  split
  · next hi =>
    have hj : p.doubleIdx ≠ some j := fun hj => h (Option.some.inj (hi.symm.trans hj))
    rw [if_neg hj]
    omega
  · split <;> omega

variable (bit : Nat → Bool)

theorem halfRuns_cons (i : Nat) (l : List Nat) : halfRuns p bit (i :: l) =
    { pol := firstHalf p (bit i), dur := halfPeriod p i } ::
      { pol := opposite (firstHalf p (bit i)), dur := halfPeriod p i } :: halfRuns p bit l := rfl

/-- The halves of one bit are not joined with each other. -/
theorem mergeRuns_halfRuns_cons (i : Nat) (l : List Nat) : mergeRuns (halfRuns p bit (i :: l)) =
    { pol := firstHalf p (bit i), dur := halfPeriod p i } ::
      joinRun { pol := opposite (firstHalf p (bit i)), dur := halfPeriod p i } (mergeRuns (halfRuns p bit l)) := by
  rw [halfRuns_cons, mergeRuns_cons, mergeRuns_cons, joinRun_of_ne (ne_opposite _)]

/-- A run is joined with the first half of the bit after it at most. -/
theorem joinRun_halfRuns_le {r : Run} {cap : Nat} {l : List Nat} (hr : r.dur ≤ cap)
    (hnext : ∀ i ∈ l.head?, r.dur + halfPeriod p i ≤ cap)
    (hrest : ∀ x ∈ mergeRuns (halfRuns p bit l), x.dur ≤ cap) :
    ∀ x ∈ joinRun r (mergeRuns (halfRuns p bit l)), x.dur ≤ cap := by
  cases l with
  | nil => simpa [halfRuns, mergeRuns, joinRun] using hr
  | cons i l =>
    have hsum := hnext i rfl
    rw [mergeRuns_halfRuns_cons, List.forall_mem_cons] at hrest
    rw [mergeRuns_halfRuns_cons, joinRun]
    split
    · exact List.forall_mem_cons.mpr ⟨hsum, hrest.2⟩
    · exact List.forall_mem_cons.mpr ⟨hr, List.forall_mem_cons.mpr hrest⟩

theorem mergeRuns_halfRuns_le {l : List Nat} (hl : l.Nodup) :
    ∀ r ∈ mergeRuns (halfRuns p bit l), r.dur ≤ 3 * p.unit := by
  induction l with
  | nil => exact nofun
  | cons i l ih =>
    obtain ⟨hnot, hl⟩ := List.nodup_cons.mp hl
    obtain ⟨_, hle⟩ := halfPeriod_le (p := p) i
    rw [mergeRuns_halfRuns_cons]
    have hhalf : halfPeriod p i ≤ 3 * p.unit := by omega
    refine List.forall_mem_cons.mpr ⟨hhalf, joinRun_halfRuns_le bit hhalf (fun j hj => ?_) (ih hl)⟩
    exact halfPeriod_add_le fun h => hnot (h ▸ List.mem_of_mem_head? hj)

theorem biphaseRuns_of_header (hmark : p.headerMark ≠ 0) (n : Nat) : biphaseRuns p bit n =
    { pol := .mark, dur := p.headerMark } :: { pol := .space, dur := p.headerSpace } ::
      halfRuns p bit (List.range n) := by
  rw [biphaseRuns, if_neg hmark]
  rfl

theorem biphaseRuns_of_no_header (hmark : p.headerMark = 0) (n : Nat) :
    biphaseRuns p bit n = halfRuns p bit (List.range n) := by
  rw [biphaseRuns, if_pos hmark]
  rfl

theorem mergeRuns_of_header (hmark : p.headerMark ≠ 0) (n : Nat) : mergeRuns (biphaseRuns p bit n) =
    { pol := .mark, dur := p.headerMark } ::
      joinRun { pol := .space, dur := p.headerSpace } (mergeRuns (halfRuns p bit (List.range n))) := by
  rw [biphaseRuns_of_header bit hmark]
  exact joinRun_of_ne (show Polarity.mark ≠ Polarity.space from nofun) _

variable (fits : BiphaseFits p)
include fits

theorem mergeRuns_biphaseRuns_le (n : Nat) : ∀ r ∈ mergeRuns (biphaseRuns p bit n), r.dur ≤ 65535 := by
  obtain ⟨hunit, hcap, hmarkCap, hspace⟩ := fits
  have hhalves : ∀ r ∈ mergeRuns (halfRuns p bit (List.range n)), r.dur ≤ 65535 := fun r hr =>
    (mergeRuns_halfRuns_le bit List.nodup_range r hr).trans (by omega)
  by_cases hmark : p.headerMark = 0
  · rwa [biphaseRuns_of_no_header bit hmark]
  · rw [mergeRuns_of_header bit hmark]
    refine List.forall_mem_cons.mpr ⟨hmarkCap,
      joinRun_halfRuns_le bit (Nat.le_trans (by simp) hcap) (fun i _ => ?_) hhalves⟩
    obtain ⟨_, hle⟩ := halfPeriod_le (p := p) i
    change p.headerSpace + halfPeriod p i ≤ 65535
    omega

theorem biphaseRuns_ne_zero (n : Nat) : ∀ r ∈ biphaseRuns p bit n, r.dur ≠ 0 := by
  obtain ⟨hunit, hcap, hmarkCap, hspace⟩ := fits
  have hhalves : ∀ r ∈ halfRuns p bit (List.range n), r.dur ≠ 0 := by
    intro r hr
    obtain ⟨i, _, hr⟩ := List.mem_flatMap.mp hr
    obtain ⟨hle, _⟩ := halfPeriod_le (p := p) i
    rcases List.mem_pair.mp hr with rfl | rfl <;> exact Nat.ne_of_gt (hunit.trans hle)
  by_cases hmark : p.headerMark = 0
  · rwa [biphaseRuns_of_no_header bit hmark]
  · rw [biphaseRuns_of_header bit hmark]
    exact List.forall_mem_cons.mpr ⟨hmark, List.forall_mem_cons.mpr ⟨Nat.ne_of_gt (hspace hmark), hhalves⟩⟩

theorem famBiphase_eq_coalesce (data n : Nat) :
    famBiphase p data n = coalesce (biphaseRuns p (bitSent p data n) n) := by
  obtain ⟨hunit, hcap, hmarkCap, hspace⟩ := fits
  have hheader : headerRuns p = if p.headerMark = 0 then []
      else [{ pol := .mark, dur := p.headerMark }, { pol := .space, dur := p.headerSpace }] := by
    unfold headerRuns
    split
    · rfl
    · next hmark =>
      rw [chunks_of_range .mark ⟨Nat.pos_of_ne_zero hmark, hmarkCap⟩,
        chunks_of_range .space ⟨hspace hmark, Nat.le_trans (by simp) hcap⟩]
      rfl
  have hcell (i : Nat) (b : Bool) : biphaseCell p i b = [{ pol := firstHalf p b, dur := halfPeriod p i },
      { pol := opposite (firstHalf p b), dur := halfPeriod p i }] := by
    obtain ⟨hle, hle'⟩ := halfPeriod_le (p := p) i
    have hrange : 1 ≤ halfPeriod p i ∧ halfPeriod p i ≤ 65535 := ⟨hunit.trans hle, by omega⟩
    unfold biphaseCell firstHalf
    split <;> rw [chunks_of_range .mark hrange, chunks_of_range .space hrange] <;> rfl
  simp only [famBiphase, hheader, bitRuns, hcell, ← bitSent_eq_sentBit]
  rfl

end

/-! ## The waveform of a biphase frame on the grid of its bits -/

section
variable {p : ProtocolSpec} (bit : Nat → Bool)

/-- The time before the first bit. -/
def frameStart (p : ProtocolSpec) : Nat := if p.headerMark = 0 then 0 else p.headerMark + p.headerSpace

theorem biphaseRuns_succ (n : Nat) : biphaseRuns p bit (n + 1) =
    biphaseRuns p bit n ++ [{ pol := firstHalf p (bit n), dur := halfPeriod p n },
      { pol := opposite (firstHalf p (bit n)), dur := halfPeriod p n }] := by
  simp only [biphaseRuns, halfRuns, List.range_succ, List.flatMap_append, List.flatMap_singleton, List.append_assoc]

theorem length_microLevels_biphaseRuns (n : Nat) :
    (microLevels (biphaseRuns p bit n)).length = bitStart p (frameStart p) n := by
  induction n with
  | zero =>
    rw [bitStart_zero]
    by_cases hmark : p.headerMark = 0 <;> simp [biphaseRuns, halfRuns, frameStart, microLevels, hmark]
  | succ n ih =>
    rw [biphaseRuns_succ, microLevels_append, List.length_append, ih, bitStart_succ]
    simp [microLevels, Nat.two_mul]

theorem biphaseRuns_eq_append {i n : Nat} (h : i < n) :
    ∃ more, biphaseRuns p bit n = biphaseRuns p bit (i + 1) ++ more := by
  induction n with
  | zero => omega
  | succ n ih =>
    rcases Nat.lt_or_ge i n with hi | hi
    · obtain ⟨more, heq⟩ := ih hi
      exact ⟨_, by rw [biphaseRuns_succ, heq, List.append_assoc]⟩
    · obtain rfl : i = n := by omega
      exact ⟨[], (List.append_nil _).symm⟩

/-- The level in either half of a bit. -/
theorem getD_microLevels_biphaseRuns {i n x : Nat} (hi : i < n) (hx : x < 2 * halfPeriod p i) :
    (microLevels (biphaseRuns p bit n)).getD (bitStart p (frameStart p) i + x) .space =
      if x < halfPeriod p i then firstHalf p (bit i) else opposite (firstHalf p (bit i)) := by
  obtain ⟨more, heq⟩ := biphaseRuns_eq_append (p := p) bit hi
  have hstart := length_microLevels_biphaseRuns (p := p) bit i
  rw [heq, biphaseRuns_succ]
  simp only [microLevels_append, microLevels_cons, List.append_assoc]
  rw [← hstart, List.getD_append_right _ _ _ _ (Nat.le_add_right ..), Nat.add_sub_cancel_left]
  split
  · next hfirst =>
    rw [List.getD_append _ _ _ _ (by rwa [List.length_replicate]), List.getD_replicate _ hfirst]
  · next hsecond =>
    have hrest : x - halfPeriod p i < halfPeriod p i := by omega
    rw [List.getD_append_right _ _ _ _ (by rw [List.length_replicate]; omega), List.length_replicate,
      List.getD_append _ _ _ _ (by rwa [List.length_replicate]), List.getD_replicate _ hrest]

end

section
variable {p : ProtocolSpec} (fits : BiphaseFits p) {data n : Nat}
  (hfirst : p.headerMark = 0 → n ≠ 0 → bitSent p data n 0 = p.oneActiveFirst)
include fits hfirst

omit fits in
/-- The frame begins with a mark, so COALESCE drops nothing of it. -/
theorem biphaseRuns_eq_nil_or_mark : biphaseRuns p (bitSent p data n) n = [] ∨
    ∃ d runs, biphaseRuns p (bitSent p data n) n = { pol := .mark, dur := d } :: runs := by
  by_cases hmark : p.headerMark = 0
  · rw [biphaseRuns_of_no_header _ hmark]
    cases n with
    | zero => exact .inl rfl
    | succ n =>
      right
      rw [List.range_succ_eq_map, halfRuns_cons, hfirst hmark (Nat.succ_ne_zero n), firstHalf, if_pos rfl]
      exact ⟨_, _, rfl⟩
  · exact .inr ⟨_, _, biphaseRuns_of_header _ hmark n⟩

/-- The waveform of the built frame is that of its runs. -/
theorem level2_famBiphase (t2 : Nat) : level2 (famBiphase p data n) t2 =
    (microLevels (biphaseRuns p (bitSent p data n) n)).getD (t2 / 2) .space := by
  have hzero := biphaseRuns_ne_zero (bitSent p data n) fits n
  have hcap := mergeRuns_biphaseRuns_le (bitSent p data n) fits n
  rw [famBiphase_eq_coalesce fits]
  rcases biphaseRuns_eq_nil_or_mark hfirst with hnil | ⟨d, runs, hmark⟩
  · rw [hnil]
    rfl
  · rw [hmark] at hzero hcap ⊢
    exact level2_coalesce (List.forall_mem_cons.mp hzero) hcap t2

theorem level2_famBiphase_halves {i : Nat} (hi : i < n) :
    level2 (famBiphase p data n) (2 * bitStart p (frameStart p) i + halfPeriod p i) = firstHalf p (bitSent p data n i) ∧
    level2 (famBiphase p data n) (2 * bitStart p (frameStart p) i + 3 * halfPeriod p i) =
      opposite (firstHalf p (bitSent p data n i)) := by
  have hhalf : 0 < halfPeriod p i := fits.unit.trans (halfPeriod_le i).1
  have hearly : (2 * bitStart p (frameStart p) i + halfPeriod p i) / 2 =
      bitStart p (frameStart p) i + halfPeriod p i / 2 := by omega
  have hlate : (2 * bitStart p (frameStart p) i + 3 * halfPeriod p i) / 2 =
      bitStart p (frameStart p) i + 3 * halfPeriod p i / 2 := by omega
  rw [level2_famBiphase fits hfirst, level2_famBiphase fits hfirst, hearly, hlate,
    getD_microLevels_biphaseRuns _ hi (by omega), getD_microLevels_biphaseRuns _ hi (by omega), if_pos (by omega),
    if_neg (by omega)]
  exact ⟨rfl, rfl⟩

/-- Every mark of the built frame begins before the end of its last bit. -/
theorem famBiphase_marks_before_end {k : Nat} (heven : k % 2 = 0) (hk : k < (famBiphase p data n).length) :
    ((famBiphase p data n).take k).sum < bitStart p (frameStart p) n := by
  by_contra hlate
  obtain ⟨_, hrange⟩ := (timingSeqWf_iff _).mp (coalesce_wf (biphaseRuns p (bitSent p data n) n))
  rw [← famBiphase_eq_coalesce fits] at hrange
  have hpos := (hrange _ (List.getElem_mem hk)).1
  have hmark : level2 (famBiphase p data n) (2 * ((famBiphase p data n).take k).sum) = .mark := by
    refine (level2_eq_mark_iff _ _).mpr ⟨k, heven, hk, le_rfl, ?_⟩
    rw [List.take_succ_eq_append_getElem hk, List.sum_append, List.sum_singleton]
    omega
  rw [level2_famBiphase fits hfirst, List.getD_eq_default _ _ (by rw [length_microLevels_biphaseRuns]; omega)] at hmark
  exact absurd hmark nofun

theorem famBiphase_eq_padSeq :
    famBiphase p data n = padSeq ((mergeRuns (biphaseRuns p (bitSent p data n) n)).map (·.dur)) := by
  have hzero := biphaseRuns_ne_zero (bitSent p data n) fits n
  have hcap := mergeRuns_biphaseRuns_le (bitSent p data n) fits n
  rw [famBiphase_eq_coalesce fits]
  rcases biphaseRuns_eq_nil_or_mark hfirst with hnil | ⟨d, runs, hmark⟩
  · rw [hnil]
    rfl
  · rw [hmark] at hzero hcap ⊢
    exact coalesce_eq_mergeRuns (List.forall_mem_cons.mp hzero) hcap

theorem length_famBiphase_le : (famBiphase p data n).length ≤ headerLength p + 2 * n + 1 := by
  have hruns : (biphaseRuns p (bitSent p data n) n).length = headerLength p + 2 * n := by
    simp only [biphaseRuns, halfRuns, headerLength, List.length_append, List.length_flatMap]
    by_cases hmark : p.headerMark = 0 <;> simp [hmark, Nat.mul_comm]
  obtain ⟨pad, hpad, hshort⟩ := padSeq_eq_append ((mergeRuns (biphaseRuns p (bitSent p data n) n)).map (·.dur))
  have hmerge := length_mergeRuns_le (biphaseRuns p (bitSent p data n) n)
  rw [famBiphase_eq_padSeq fits hfirst, hpad, List.length_append, List.length_map]
  omega

/-- A header stands in the built frame with its own mark, and a space at least as long as its own. -/
theorem famBiphase_of_header (hmark : p.headerMark ≠ 0) :
    ∃ e rest, famBiphase p data n = p.headerMark :: e :: rest ∧ p.headerSpace ≤ e := by
  obtain ⟨e, more, hspace, hle⟩ := joinRun_eq_cons { pol := .space, dur := p.headerSpace }
    (mergeRuns (halfRuns p (bitSent p data n) (List.range n)))
  obtain ⟨pad, hpad, _⟩ := padSeq_eq_append ((mergeRuns (biphaseRuns p (bitSent p data n) n)).map (·.dur))
  rw [famBiphase_eq_padSeq fits hfirst, hpad, mergeRuns_of_header _ hmark, hspace]
  exact ⟨e, _, rfl, hle⟩

/-- Without a header the built frame begins with the first half of its first bit. -/
theorem famBiphase_of_no_header (hmark : p.headerMark = 0) (hn : n ≠ 0) :
    ∃ rest, famBiphase p data n = halfPeriod p 0 :: rest := by
  obtain ⟨m, rfl⟩ := Nat.exists_eq_succ_of_ne_zero hn
  obtain ⟨pad, hpad, _⟩ := padSeq_eq_append ((mergeRuns (biphaseRuns p (bitSent p data (m + 1)) (m + 1))).map (·.dur))
  rw [famBiphase_eq_padSeq fits hfirst, hpad, biphaseRuns_of_no_header _ hmark, List.range_succ_eq_map,
    mergeRuns_halfRuns_cons]
  exact ⟨_, rfl⟩

end

/-! ## The decoder inverts the builder -/

theorem sampledBit_of_firstHalf {p : ProtocolSpec} {q : List Nat} {t0 i : Nat} {b : Bool}
    (h : level2 q (2 * bitStart p t0 i + halfPeriod p i) = firstHalf p b) : sampledBit p q t0 i = b := by
  unfold sampledBit
  rw [h]
  unfold firstHalf
  cases b <;> cases p.oneActiveFirst <;> rfl

theorem decBiphase_famBiphase {p : ProtocolSpec} (fits : BiphaseFits p) {data : Nat}
    (hfirst : p.headerMark = 0 → p.nbits ≠ 0 → bitSent p data p.nbits 0 = p.oneActiveFirst) (tol : Nat) :
    decBiphase tol p (famBiphase p data p.nbits) = some (data % 2 ^ p.nbits) := by
  refine decBiphase_eq_some_iff.mpr ⟨frameStart p, fun hmark => if_pos hmark, fun hmark => ?header,
    Nat.mod_lt _ (Nat.two_pow_pos _), fun i hi => ?bit,
    fun k heven hk => famBiphase_marks_before_end fits hfirst heven hk⟩
  case header =>
    obtain ⟨e, rest, hseq, _⟩ := famBiphase_of_header fits hfirst hmark
    exact ⟨_, _, hseq, near_self tol _, if_neg hmark⟩
  case bit =>
    obtain ⟨hearly, hlate⟩ := level2_famBiphase_halves fits hfirst hi
    refine ⟨?_, ?_⟩
    · rw [HalvesDiffer, hearly, hlate]
      exact ne_opposite _
    · rw [sampledBit_of_firstHalf hearly, bitSent_eq_sentBit, sentBit_mod _ _ hi, ← bitSent_eq_sentBit]

/-- Settles O48: the level by position (`level2_eq_mark_iff`), what the decoder accepts (`decBiphase_eq_some_iff`), and
that it reads back what the builder writes (`decBiphase_famBiphase`). -/
theorem biphaseDecoderInvertsBuilder : Obligations.BiphaseDecoderInvertsBuilder := by
  refine ⟨level2_eq_mark_iff, fun tol p q d => ?accepts, fun tol p data hunit hcap hmark hspace hfirst =>
    decBiphase_famBiphase ⟨hunit, hcap, hmark, hspace⟩ hfirst tol⟩
  case accepts =>
    rw [decBiphase_eq_some_iff]
    simp only [eq_sampledBit_iff, HalvesDiffer, halfPeriod, forall_eq_apply_imp_iff]

end Sys2Proof.Machine
end

section
/-! PROOFS. The frames of the default table decode to their own name and word: the pulse protocols (O49), RC5 and RC6
(O50). -/

namespace Sys2Proof.Machine

/-! ## The match over the default table (45_normalizer_decode.md R253) -/

/-- The rows of the two pulse families, which stand first in the default table (10_state.md R30). -/
def pulseRows : List (Text × ProtocolSpec) :=
  [(necName, necSpec), (necextName, necextSpec), (samsung32Name, samsung32Spec), (sircName, sircSpec 12),
    (sirc15Name, sircSpec 15), (sirc20Name, sircSpec 20), (kaseikyoName, kaseikyoSpec)]

theorem defaultTable_eq (l : Rc5Layout) :
    defaultTable l = pulseRows ++ [(rc5Name, rc5Spec l), (rc6Name, rc6Spec)] := rfl

section
variable {s : State} {l : Rc5Layout} (hfault : s.fault = false) (hparams : s.params = paramsFor l)
include hfault hparams

/-- DEC.MATCH answers the first row of the default table that is not rejected. -/
theorem exec_decMatch_of_row {before after : List (Text × ProtocolSpec)} {name : Text} {row : ProtocolSpec} {data : Nat}
    (htable : defaultTable l = before ++ (name, row) :: after) (hseq : s.seq ≠ [])
    (hbefore : ∀ r ∈ before, RowRejects (paramsFor l) s.seq r) (hdecode : decodeRow 25 row s.seq = some data)
    (hvalid : validFrame l name data = true) :
    exec .decMatch s = .next { s with result := .ok, value := .decoded name data row.nbits } := by
  refine exec_decMatch_of_some hfault hseq ?_
  rw [hparams]
  exact matchRows_of_first htable hbefore hdecode hvalid

/-- An encoder whose frame DEC.MATCH answers, with a word from which its fields are recovered, round trips. -/
theorem roundTrip_of_decodes {i : Instr} {name : Text} {operand : Text → Option Nat}
    {frame : Params → ProtocolSpec → Nat → Nat → TimingSeq} (enc : NamedEncoder i name operand frame)
    {row : ProtocolSpec} {a c data : Nat} {fields : Recovered} (hrow : (defaultTable l).lookup name = some row)
    (ha : operand s.cmd.address = some a) (hc : operand s.cmd.command = some c)
    (hframe : frame (paramsFor l) row a c = fam row data row.nbits)
    (hdecodes : ∀ t : State, t.fault = false → t.params = paramsFor l → t.seq = fam row data row.nbits →
      exec .decMatch t = .next { t with result := .ok, value := .decoded name data row.nbits })
    (hrecover : recover l name data = some fields) : RoundTrip l i name row.nbits fields s := by
  have hexec := enc.exec_of_operands hfault (hparams ▸ hrow : s.params.table.lookup name = some row) ha hc
  rw [hparams, hframe] at hexec
  exact ⟨_, data, hexec, rfl, hdecodes _ hfault rfl rfl, hrecover⟩

end

theorem rowRejects_of_none {p : Params} {q : TimingSeq} {r : Text × ProtocolSpec}
    (h : decodeRow p.decodeTolPct r.2 q = none) : RowRejects p q r := by
  intro d hd
  rw [h] at hd
  cases hd

/-! ## Rows of the pulse families (41_encoder_families.md R151, R152) -/

/-- The nominal space of a 1 bit: the pulse-width family has one space for both bits (45_normalizer_decode.md R256). -/
def spaceOfOne (p : ProtocolSpec) : Nat :=
  match p.family with
  | .pd => p.oneSpace
  | .pw | .biphase => p.zeroSpace

/-- A row of a pulse family with a header and bits, whose cells fit and are told apart. -/
structure PulseRow (tol : Nat) (p : ProtocolSpec) : Prop where
  family : p.family ≠ .biphase
  fits : PulseFits p (spaceOfOne p)
  apart : CellsApart tol p (spaceOfOne p)
  header : p.headerMark ≠ 0
  bits : p.nbits ≠ 0

/-- The number of elements of a row's frame. -/
def pulseLength (p : ProtocolSpec) : Nat := headerLength p + 2 * p.nbits + trailerLength p

namespace PulseRow

variable {tol : Nat} {p : ProtocolSpec} (h : PulseRow tol p)
include h

theorem decodeRow_eq (q : TimingSeq) : decodeRow tol p q = readFrame tol p (spaceOfOne p) p.zeroSpace q := by
  have hfamily := h.family
  unfold decodeRow spaceOfOne
  cases hp : p.family with
  | pd | pw => rfl
  | biphase => exact absurd hp hfamily

theorem fam_eq (data n : Nat) : fam p data n = famPulse p (spaceOfOne p) data n := by
  have hfamily := h.family
  unfold fam spaceOfOne
  cases hp : p.family with
  | pd => exact famPd_eq_famPulse p data n
  | pw => exact famPw_eq_famPulse p data n
  | biphase => exact absurd hp hfamily

/-- A row reads its own frame. -/
theorem decodeRow_fam {data : Nat} (hdata : data < 2 ^ p.nbits) : decodeRow tol p (fam p data p.nbits) = some data := by
  rw [h.decodeRow_eq, h.fam_eq, readFrame_famPulse h.fits h.apart, Nat.mod_eq_of_lt hdata]

theorem length_fam (data : Nat) : (fam p data p.nbits).length = pulseLength p := by
  rw [h.fam_eq, famPulse_eq_pulseSeq h.fits, length_pulseSeq, length_pulsePairs, pulseLength]

theorem fam_ne_nil (data : Nat) : fam p data p.nbits ≠ [] := by
  have hbits := h.bits
  refine List.ne_nil_of_length_pos ?_
  rw [h.length_fam, pulseLength]
  omega

theorem fam_header (data : Nat) :
    (fam p data p.nbits).getD 0 0 = p.headerMark ∧ (fam p data p.nbits).getD 1 0 = p.headerSpace := by
  rw [h.fam_eq, famPulse_eq_pulseSeq h.fits]
  exact getD_pulseSeq (pulsePairs_header data p.nbits h.header)

/-- A row refuses a sequence of another length, and one that begins with another header. -/
theorem decodeRow_eq_none {q : TimingSeq} (hother : q.length ≠ pulseLength p ∨
    near tol (q.getD 0 0) p.headerMark = false ∨ near tol (q.getD 1 0) p.headerSpace = false) :
    decodeRow tol p q = none := by
  refine Option.eq_none_iff_forall_ne_some.mpr fun d hd => ?_
  rw [h.decodeRow_eq] at hd
  obtain ⟨hlength, _, hheader, _⟩ := (readFrame_eq_some_iff rfl rfl).mp hd
  have hcell := hheader h.header
  have hlong : 0 + 2 ≠ q.length := by
    have hbits := h.bits
    have htwo : headerLength p = 2 := if_pos h.header
    omega
  rw [cellAt, decide_eq_false hlong, Bool.false_or, Bool.and_eq_true] at hcell
  rcases hother with hother | hother | hother
  · exact hother hlength
  · exact ne_true_of_eq_false hother hcell.1
  · exact ne_true_of_eq_false hother hcell.2

end PulseRow

/-! ## The pulse rows of the default table (10_state.md R30) -/

/-- The row `r` refuses the frames of the row `p`. -/
abbrev FramesApart (r p : ProtocolSpec) : Prop :=
  pulseLength p ≠ pulseLength r ∨ near 25 p.headerMark r.headerMark = false ∨
    near 25 p.headerSpace r.headerSpace = false

theorem pulseRow_of_mem {r : Text × ProtocolSpec} (h : r ∈ pulseRows) : PulseRow 25 r.2 := by
  have hrows : ∀ r ∈ pulseRows, r.2.family ≠ .biphase ∧ (1 ≤ r.2.oneMark ∧ r.2.oneMark ≤ 65535) ∧
      (1 ≤ r.2.zeroMark ∧ r.2.zeroMark ≤ 65535) ∧ (1 ≤ spaceOfOne r.2 ∧ spaceOfOne r.2 ≤ 65535) ∧
      (1 ≤ r.2.zeroSpace ∧ r.2.zeroSpace ≤ 65535) ∧
      (r.2.headerMark ≠ 0 → r.2.headerMark ≤ 65535 ∧ 1 ≤ r.2.headerSpace ∧ r.2.headerSpace ≤ 65535) ∧
      r.2.trailerMark ≤ 65535 ∧ r.2.trailerSpace ≤ 65535 ∧ CellsApart 25 r.2 (spaceOfOne r.2) ∧
      r.2.headerMark ≠ 0 ∧ r.2.nbits ≠ 0 := by decide
  obtain ⟨hfamily, hone, hzero, hspace, hspace', hheader, htrailer, htrailer', hapart, hmark, hbits⟩ := hrows r h
  exact ⟨hfamily, ⟨hone, hzero, hspace, hspace', hheader, htrailer, htrailer'⟩, hapart, hmark, hbits⟩

/-- Each row refuses the frames of the rows after it, but NEC those of NECext. -/
theorem pulseRows_apart : pulseRows.Pairwise (fun r p => p.1 = necextName ∨ FramesApart r.2 p.2) := by
  decide

/-- A row refuses the frames of a row that is told apart from it. -/
theorem rowRejects_of_framesApart {l : Rc5Layout} {r row : Text × ProtocolSpec} (hr : r ∈ pulseRows)
    (hrow : row ∈ pulseRows) (hapart : FramesApart r.2 row.2) (data : Nat) :
    RowRejects (paramsFor l) (fam row.2 data row.2.nbits) r := by
  have hframe := pulseRow_of_mem hrow
  obtain ⟨hmark, hspace⟩ := hframe.fam_header data
  refine rowRejects_of_none ((pulseRow_of_mem hr).decodeRow_eq_none ?_)
  rwa [hframe.length_fam, hmark, hspace]

/-! ## An NEC-extended frame in NEC's bit order (45_normalizer_decode.md R253) -/

/-- Sent lowest bit first, the reversed word is the word sent highest bit first. -/
theorem sentBit_bitrev {n i : Nat} (hi : i < n) (data : Nat) :
    sentBit .lsbFirst (bitrev n data) n i = sentBit .msbFirst data n i := by
  have hplace : n - 1 - (n - 1 - i) = i := by omega
  have hrev := testBit_bitrev (show n - 1 - i < n by omega) data
  rwa [hplace] at hrev

/-- NEC and NECext share their timings, so a frame of the one is a frame of the other. -/
theorem fam_necext_eq_nec (data : Nat) : fam necextSpec data 32 = fam necSpec (bitrev 32 data) 32 := by
  have hbits : bitRuns (fun _ => pdCell necextSpec) .msbFirst data 32 =
      bitRuns (fun _ => pdCell necSpec) .lsbFirst (bitrev 32 data) 32 := by
    refine List.flatMap_congr fun i hi => ?_
    rw [sentBit_bitrev (List.mem_range.mp hi)]
    rfl
  exact congrArg (fun bits => coalesce (headerRuns necSpec ++ bits ++ trailerRuns necSpec)) hbits

theorem decodeRow_nec_of_necext (data : Nat) :
    decodeRow 25 necSpec (fam necextSpec data 32) = some (bitrev 32 data) := by
  rw [fam_necext_eq_nec]
  exact (pulseRow_of_mem (r := (necName, necSpec)) (by simp [pulseRows])).decodeRow_fam (bitrev_lt 32 data)

/-! ## DEC.MATCH of a pulse frame -/

section
variable {s : State} {l : Rc5Layout} (hfault : s.fault = false) (hparams : s.params = paramsFor l)
include hfault hparams

/-- A frame of a pulse row other than NECext decodes to its own name and word. -/
theorem exec_decMatch_pulse {name : Text} {row : ProtocolSpec} {data : Nat} (hmem : (name, row) ∈ pulseRows)
    (hname : name ≠ necextName) (hdata : data < 2 ^ row.nbits) (hvalid : validFrame l name data = true)
    (hseq : s.seq = fam row data row.nbits) :
    exec .decMatch s = .next { s with result := .ok, value := .decoded name data row.nbits } := by
  have hrow := pulseRow_of_mem hmem
  obtain ⟨before, after, hsplit⟩ := List.append_of_mem hmem
  have hapart : ∀ r ∈ before, FramesApart r.2 row := by
    have hpairs := pulseRows_apart
    rw [hsplit, List.pairwise_append] at hpairs
    obtain ⟨_, _, hcross⟩ := hpairs
    exact fun r hr => (hcross r hr _ List.mem_cons_self).resolve_left hname
  have htable : defaultTable l = before ++ (name, row) :: (after ++ [(rc5Name, rc5Spec l), (rc6Name, rc6Spec)]) := by
    rw [defaultTable_eq, hsplit, List.append_assoc, List.cons_append]
  refine exec_decMatch_of_row hfault hparams htable (hseq ▸ hrow.fam_ne_nil data) (fun r hr => ?_)
    (hseq ▸ hrow.decodeRow_fam hdata) hvalid
  rw [hseq]
  exact rowRejects_of_framesApart (hsplit ▸ List.mem_append_left _ hr) hmem (hapart r hr) data

/-- A frame of NECext is reported as NEC when it passes NEC's check in NEC's bit order, else as NECext. -/
theorem exec_decMatch_necext {data : Nat} (hdata : data < 2 ^ 32) (hseq : s.seq = fam necextSpec data 32) :
    exec .decMatch s = .next { s with
      result := .ok
      value := if validFrame l necName (bitrev 32 data) = true then .decoded necName (bitrev 32 data) 32
        else .decoded necextName data 32 } := by
  have hrow := pulseRow_of_mem (r := (necextName, necextSpec)) (by simp [pulseRows])
  have hne : s.seq ≠ [] := hseq ▸ hrow.fam_ne_nil data
  have hnec : decodeRow 25 necSpec s.seq = some (bitrev 32 data) := hseq ▸ decodeRow_nec_of_necext data
  have hnecext : decodeRow 25 necextSpec s.seq = some data := hseq ▸ hrow.decodeRow_fam hdata
  split
  · next hvalid =>
    exact exec_decMatch_of_row (row := necSpec) (before := []) hfault hparams rfl hne nofun hnec hvalid
  · next hinvalid =>
    refine exec_decMatch_of_row (row := necextSpec) (before := [(necName, necSpec)]) hfault hparams rfl hne
      (fun r hr d hd => ?_) hnecext (validFrame_unchecked l data (by decide))
    obtain rfl := List.mem_singleton.mp hr
    obtain rfl : bitrev 32 data = d := Option.some.inj (hnec.symm.trans hd)
    exact Bool.eq_false_of_not_eq_true hinvalid

/-- An encoder of a pulse row other than NECext round trips. -/
theorem roundTrip_pulse {i : Instr} {name : Text} {operand : Text → Option Nat}
    {frame : Params → ProtocolSpec → Nat → Nat → TimingSeq} (enc : NamedEncoder i name operand frame)
    {row : ProtocolSpec} {a c data : Nat} {fields : Recovered} (hmem : (name, row) ∈ pulseRows)
    (hname : name ≠ necextName) (hrow : (defaultTable l).lookup name = some row)
    (ha : operand s.cmd.address = some a) (hc : operand s.cmd.command = some c)
    (hframe : frame (paramsFor l) row a c = fam row data row.nbits) (hdata : data < 2 ^ row.nbits)
    (hvalid : validFrame l name data = true) (hrecover : recover l name data = some fields) :
    RoundTrip l i name row.nbits fields s :=
  roundTrip_of_decodes hfault hparams enc hrow ha hc hframe
    (fun _ hfault' hparams' hseq => exec_decMatch_pulse hfault' hparams' hmem hname hdata hvalid hseq) hrecover

end

/-! ## The fields of a decoded word (R258) -/

theorem recover_nec (l : Rc5Layout) (d : Nat) :
    recover l necName d = some (.nec (d % 2 ^ 8) (d / 2 ^ 16 % 2 ^ 8)) := by
  simp [recover, byteAt_eq]

theorem recover_necext (l : Rc5Layout) (d : Nat) : recover l necextName d =
    some (.necext (bswap16 (bitrev 16 (d % 2 ^ 16))) (bswap16 (bitrev 16 (d / 2 ^ 16)))) := by
  simp [recover, necextName, necName, Nat.shiftRight_eq_div_pow]

theorem recover_samsung32 (l : Rc5Layout) (d : Nat) :
    recover l samsung32Name d = some (.samsung (d % 2 ^ 16) (d / 2 ^ 16)) := by
  simp [recover, samsung32Name, rc6Name, rc5Name, necextName, necName, Nat.shiftRight_eq_div_pow]

theorem recover_kaseikyo (l : Rc5Layout) {d w : Nat} (hw : w = bitrev 48 d) : recover l kaseikyoName d =
    some (.kaseikyo (w % 2 ^ 8 + 256 * (w / 2 ^ 8 % 2 ^ 8)) (w / 2 ^ 16 % 2 ^ 8 / 2 ^ 4) (w / 2 ^ 24 % 2 ^ 8 % 16)
      (w / 2 ^ 24 % 2 ^ 8 / 2 ^ 4 + 16 * (w / 2 ^ 32 % 2 ^ 8 % 64)) (w / 2 ^ 32 % 2 ^ 8 / 2 ^ 6)) := by
  subst hw
  simp [recover, kaseikyoName, sirc20Name, sirc15Name, sircName, samsung32Name, rc6Name, rc5Name, necextName, necName,
    byteAt_eq, Nat.shiftRight_eq_div_pow]

theorem bitrev_bitrev {n v : Nat} (h : v < 2 ^ n) : bitrev n (bitrev n v) = v := by
  refine eq_of_sentBit (o := .lsbFirst) (bitrev_lt n _) h fun i hi => ?_
  rw [sentBit_bitrev hi, sentBit, bitPlace, testBit_bitrev hi]
  rfl

/-- The three variants of SIRC differ in their name and their bit count. -/
theorem recover_sirc (l : Rc5Layout) (d : Nat) {name : Text} {n : Nat}
    (h : (name, n) ∈ [(sircName, 12), (sirc15Name, 15), (sirc20Name, 20)]) :
    recover l name d = some (.sirc (bitrev n d / 2 ^ 7) (bitrev n d % 2 ^ 7)) := by
  simp only [List.mem_cons, Prod.mk.injEq, List.not_mem_nil, or_false] at h
  rcases h with ⟨rfl, rfl⟩ | ⟨rfl, rfl⟩ | ⟨rfl, rfl⟩ <;>
    simp [recover, sirc20Name, sirc15Name, sircName, samsung32Name, rc6Name, rc5Name, necextName, necName,
      Nat.shiftRight_eq_div_pow]

/-! ## The packed words carry their fields (42_encoder_protocols.md R171 to R180) -/

section
variable {l : Rc5Layout} {a c : Nat}

/-- The bytes of a word that is their sum. -/
theorem bytes_of_sum {w b0 b1 b2 b3 b4 b5 : Nat} (h0 : b0 < 256) (h1 : b1 < 256) (h2 : b2 < 256) (h3 : b3 < 256)
    (h4 : b4 < 256) (h5 : b5 < 256)
    (hw : w = b0 + 2 ^ 8 * b1 + 2 ^ 16 * b2 + 2 ^ 24 * b3 + 2 ^ 32 * b4 + 2 ^ 40 * b5) :
    w % 2 ^ 8 = b0 ∧ w / 2 ^ 8 % 2 ^ 8 = b1 ∧ w / 2 ^ 16 % 2 ^ 8 = b2 ∧ w / 2 ^ 24 % 2 ^ 8 = b3 ∧
      w / 2 ^ 32 % 2 ^ 8 = b4 ∧ w / 2 ^ 40 % 2 ^ 8 = b5 := by
  refine ⟨?_, ?_, ?_, ?_, ?_, ?_⟩ <;> omega

theorem necWord_spec (ha : a < 256) (hc : c < 256) : necWord a c < 2 ^ 32 ∧ validFrame l necName (necWord a c) = true ∧
    recover l necName (necWord a c) = some (.nec a c) := by
  have hword := necWord_eq ha hc
  obtain ⟨h0, h1, h2, h3, _, _⟩ := bytes_of_sum (w := necWord a c) (b1 := 255 - a) (b3 := 255 - c) (b4 := 0) (b5 := 0)
    ha (by omega) hc (by omega) (by decide) (by decide) (by simpa using hword)
  rw [validFrame_nec, recover_nec, h0, h1, h2, h3]
  exact ⟨by omega, ⟨rfl, rfl⟩, rfl⟩

theorem bswap16_bswap16 {v : Nat} (h : v < 2 ^ 16) : bswap16 (bswap16 v) = v := by
  have hbytes := bswap16_mod v
  rw [Nat.mod_eq_of_lt h] at hbytes
  rw [hbytes, bswap16_bytes (by omega) (by omega)]
  omega

theorem bswap16_lt (v : Nat) : bswap16 (v % 2 ^ 16) < 2 ^ 16 := by
  rw [bswap16_mod]
  omega

theorem necextWord_spec : necextWord a c < 2 ^ 32 ∧
    recover l necextName (necextWord a c) = some (.necext (a % 2 ^ 16) (c % 2 ^ 16)) := by
  have ha : necextField a < 2 ^ 16 := bitrev_lt 16 _
  have hc : necextField c < 2 ^ 16 := bitrev_lt 16 _
  have hfield (v : Nat) : bswap16 (bitrev 16 (necextField v)) = v % 2 ^ 16 := by
    rw [necextField, bitrev_bitrev (bswap16_lt v), bswap16_bswap16 (Nat.mod_lt v (by decide))]
  have hlow : (necextField a + 2 ^ 16 * necextField c) % 2 ^ 16 = necextField a := by omega
  have hhigh : (necextField a + 2 ^ 16 * necextField c) / 2 ^ 16 = necextField c := by omega
  rw [recover_necext, necextWord, or_shiftLeft_eq_add _ _ 16 ha, hlow, hhigh, hfield, hfield]
  exact ⟨by omega, rfl⟩

theorem samsungWord_spec (ha : a < 2 ^ 16) (hc : c < 2 ^ 16) : samsungWord a c < 2 ^ 32 ∧
    recover l samsung32Name (samsungWord a c) = some (.samsung a c) := by
  rw [recover_samsung32, samsungWord, or_shiftLeft_eq_add _ _ 16 ha]
  refine ⟨by omega, ?_⟩
  congr 2 <;> omega

theorem sircWord_spec {name : Text} {n : Nat} (h : (name, n) ∈ [(sircName, 12), (sirc15Name, 15), (sirc20Name, 20)]) :
    sircWord n a c < 2 ^ n ∧ recover l name (sircWord n a c) = some (.sirc (a % 2 ^ (n - 7)) (c % 2 ^ 7)) := by
  have hn : 7 ≤ n := by
    have hall : ∀ e ∈ [(sircName, 12), (sirc15Name, 15), (sirc20Name, 20)], 7 ≤ e.2 := by decide
    exact hall _ h
  have haddr : a % 2 ^ (n - 7) < 2 ^ (n - 7) := Nat.mod_lt a (Nat.two_pow_pos _)
  have hcmd : c % 2 ^ 7 < 2 ^ 7 := Nat.mod_lt c (by decide)
  have hsplit : 2 ^ n = 2 ^ 7 * 2 ^ (n - 7) := by
    rw [← Nat.pow_add, Nat.add_sub_cancel' hn]
  have hlt : 2 ^ 7 * (a % 2 ^ (n - 7)) + c % 2 ^ 7 < 2 ^ n := by omega
  rw [recover_sirc l _ h, sircWord_eq, bitrev_bitrev hlt]
  refine ⟨bitrev_lt n _, ?_⟩
  congr 2 <;> omega

theorem kaseikyoWord_spec : kaseikyoWord defaultKaseikyo a c < 2 ^ 48 ∧
    validFrame l kaseikyoName (kaseikyoWord defaultKaseikyo a c) = true ∧
    recover l kaseikyoName (kaseikyoWord defaultKaseikyo a c) =
      some (.kaseikyo (a / 2 ^ 8 % 2 ^ 16) (a / 2 ^ 4 % 2 ^ 4) (a % 2 ^ 4) (c % 2 ^ 10) (a / 2 ^ 24 % 2 ^ 2)) := by
  obtain ⟨vendor, hvendor⟩ : ∃ vendor, vendor = a / 2 ^ 8 % 2 ^ 16 := ⟨_, rfl⟩
  obtain ⟨b0, hb0⟩ : ∃ b0, b0 = vendor % 256 := ⟨_, rfl⟩
  obtain ⟨b1, hb1⟩ : ∃ b1, b1 = vendor / 256 := ⟨_, rfl⟩
  obtain ⟨parity, hparity⟩ : ∃ parity, parity = (b0 ^^^ b1) % 16 ^^^ (b0 ^^^ b1) / 16 := ⟨_, rfl⟩
  obtain ⟨b2, hb2⟩ : ∃ b2, b2 = parity + 16 * (a / 2 ^ 4 % 16) := ⟨_, rfl⟩
  obtain ⟨b3, hb3⟩ : ∃ b3, b3 = 16 * (c % 16) + a % 16 := ⟨_, rfl⟩
  obtain ⟨b4, hb4⟩ : ∃ b4, b4 = 64 * (a / 2 ^ 24 % 4) + c % 2 ^ 10 / 16 := ⟨_, rfl⟩
  obtain ⟨b5, hb5⟩ : ∃ b5, b5 = b2 ^^^ b3 ^^^ b4 := ⟨_, rfl⟩
  have hnibble : parity < 16 := by
    rw [hparity, ← Nat.shiftRight_eq_div_pow (b0 ^^^ b1) 4]
    exact kaseikyoParity_lt (by omega) (by omega)
  have hbyte5 : b5 < 2 ^ 8 := by
    rw [hb5]
    exact Nat.xor_lt_two_pow (Nat.xor_lt_two_pow (by omega) (by omega)) (by omega)
  have hfields : b0 + 256 * b1 = a / 2 ^ 8 % 2 ^ 16 ∧ b2 / 2 ^ 4 = a / 2 ^ 4 % 2 ^ 4 ∧ b3 % 16 = a % 2 ^ 4 ∧
      b3 / 2 ^ 4 + 16 * (b4 % 64) = c % 2 ^ 10 ∧ b4 / 2 ^ 6 = a / 2 ^ 24 % 2 ^ 2 := by
    refine ⟨?_, ?_, ?_, ?_, ?_⟩ <;> omega
  obtain ⟨hvendorField, hgenre1, hgenre2, hdata, hid⟩ := hfields
  have hbytes := kaseikyoBytes_default a c hvendor hb0 hb1 (hparity ▸ hb2) hb3 hb4
  rw [← hb5] at hbytes
  generalize hw : kaseikyoBytes defaultKaseikyo a c = w at hbytes
  have hrev : w = bitrev 48 (kaseikyoWord defaultKaseikyo a c) := by
    rw [kaseikyoWord, hw, bitrev_bitrev (by omega)]
  obtain ⟨hw0, hw1, hw2, hw3, hw4, hw5⟩ := bytes_of_sum (by omega) (by omega) (by omega) (by omega)
    (by omega) hbyte5 hbytes
  rw [validFrame_kaseikyo l hrev, recover_kaseikyo l hrev, hw0, hw1, hw2, hw3, hw4, hw5,
    hvendorField, hgenre1, hgenre2, hdata, hid]
  exact ⟨bitrev_lt 48 _, hb5, rfl⟩

end

/-! ## The frames and the encoders of the pulse protocols -/

theorem mem_pulseRows {l : Rc5Layout} {r : Text × ProtocolSpec} (h : r ∈ defaultTable l)
    (hfamily : r.2.family ≠ .biphase) :
    r ∈ pulseRows := by
  rw [defaultTable_eq, List.mem_append, List.mem_pair] at h
  rcases h with h | rfl | rfl
  · exact h
  · exact absurd rfl hfamily
  · exact absurd rfl hfamily

theorem eq_necextSpec_of_mem {row : ProtocolSpec} (h : (necextName, row) ∈ pulseRows) : row = necextSpec := by
  simpa [pulseRows, necextName, necName, samsung32Name, sircName, sirc15Name, sirc20Name, kaseikyoName] using h

section
variable {s : State} {l : Rc5Layout} (hfault : s.fault = false) (hparams : s.params = paramsFor l) {a c : Nat}
include hfault hparams

theorem roundTrip_nec (ha : firstByte s.cmd.address = some a) (hc : firstByte s.cmd.command = some c) :
    RoundTrip l .encNec necName 32 (.nec a c) s := by
  obtain ⟨hdata, hvalid, hrecover⟩ := necWord_spec (l := l) (firstByte_lt ha) (firstByte_lt hc)
  exact roundTrip_pulse (row := necSpec) hfault hparams .nec (by simp [pulseRows]) (by decide) rfl ha hc rfl hdata
    hvalid hrecover

theorem roundTrip_samsung32 (ha : hexval s.cmd.address = some a) (hc : hexval s.cmd.command = some c)
    (hda : ndigits s.cmd.address ≤ 4) (hdc : ndigits s.cmd.command ≤ 4) :
    RoundTrip l .encSamsung32 samsung32Name 32
      (.samsung (samsungField s.cmd.address a) (samsungField s.cmd.command c)) s := by
  obtain ⟨hdata, hrecover⟩ := samsungWord_spec (l := l) (samsungField_lt ha hda) (samsungField_lt hc hdc)
  exact roundTrip_pulse (row := samsung32Spec) hfault hparams .samsung32 (by simp [pulseRows]) (by decide) rfl
    (field16_of_hexval ha hda) (field16_of_hexval hc hdc) rfl hdata (validFrame_unchecked l _ (by decide)) hrecover

section
variable (ha : hexval s.cmd.address = some a) (hc : hexval s.cmd.command = some c) (hda : ndigits s.cmd.address ≤ 8)
  (hdc : ndigits s.cmd.command ≤ 8)
include ha hc hda hdc

theorem roundTrip_sirc {i : Instr} {name : Text} {n : Nat} (h : (i, name, n) ∈ [(Instr.encSirc, sircName, 12),
    (.encSirc15, sirc15Name, 15), (.encSirc20, sirc20Name, 20)]) :
    RoundTrip l i name n (.sirc (bswap32 a % 2 ^ (n - 7)) (bswap32 c % 2 ^ 7)) s := by
  have hvariant : (name, n) ∈ [(sircName, 12), (sirc15Name, 15), (sirc20Name, 20)] :=
    List.mem_map_of_mem (f := Prod.snd) h
  have hrow : ∀ e ∈ [(sircName, 12), (sirc15Name, 15), (sirc20Name, 20)],
      (e.1, sircSpec e.2) ∈ pulseRows ∧ e.1 ≠ necextName ∧ (defaultTable l).lookup e.1 = some (sircSpec e.2) ∧
        e.1 ∉ [necName, rc5Name, rc6Name, kaseikyoName] := by
    intro e he
    simp only [List.mem_cons, List.not_mem_nil, or_false] at he
    rcases he with rfl | rfl | rfl <;> exact ⟨by simp [pulseRows], by decide, rfl, by decide⟩
  obtain ⟨hmem, hname, hlookup, hunchecked⟩ := hrow _ hvariant
  obtain ⟨hdata, hrecover⟩ := sircWord_spec (l := l) (a := bswap32 a) (c := bswap32 c) hvariant
  exact roundTrip_pulse hfault hparams (NamedEncoder.exists_sirc_of_mem h) hmem hname hlookup
    (swapped_of_hexval ha hda) (swapped_of_hexval hc hdc) rfl hdata (validFrame_unchecked l _ hunchecked) hrecover

theorem roundTrip_kaseikyo : RoundTrip l .encKaseikyo kaseikyoName 48
    (.kaseikyo (bswap32 a / 2 ^ 8 % 2 ^ 16) (bswap32 a / 2 ^ 4 % 2 ^ 4) (bswap32 a % 2 ^ 4)
      (bswap32 c % 2 ^ 10) (bswap32 a / 2 ^ 24 % 2 ^ 2)) s := by
  obtain ⟨hdata, hvalid, hrecover⟩ := kaseikyoWord_spec (l := l) (a := bswap32 a) (c := bswap32 c)
  exact roundTrip_pulse (row := kaseikyoSpec) hfault hparams .kaseikyo (by simp [pulseRows]) (by decide) rfl
    (swapped_of_hexval ha hda) (swapped_of_hexval hc hdc) rfl hdata hvalid hrecover

end

/-- An NECext frame that passes NEC's check is reported as NEC; its own word carries the fields all the same. -/
theorem exec_encNecext_decMatch (ha : hexval (trunc00 s.cmd.address) = some a)
    (hc : hexval (trunc00 s.cmd.command) = some c) :
    ∃ t data, exec .encNecext s = .next t ∧ t.result = .ok ∧
      exec .decMatch t = .next { t with
        value := if validFrame l necName (bitrev 32 data) = true then .decoded necName (bitrev 32 data) 32
          else .decoded necextName data 32 } ∧
      recover l necextName data = some (.necext (a % 2 ^ 16) (c % 2 ^ 16)) := by
  obtain ⟨hdata, hrecover⟩ := necextWord_spec (l := l) (a := a) (c := c)
  have hexec := NamedEncoder.necext.exec_of_operands (row := necextSpec) hfault (by rw [hparams]; rfl) ha hc
  have hdecodes (t : State) (hfault' : t.fault = false) (hparams' : t.params = paramsFor l)
      (hseq : t.seq = fam necextSpec (necextWord a c) 32) := exec_decMatch_necext hfault' hparams' hdata hseq
  exact ⟨_, necextWord a c, hexec, rfl, hdecodes _ hfault hparams rfl, hrecover⟩

end

/-- Settles O49: a pulse row decodes its own frames (`PulseRow.decodeRow_fam`) and the rows before it refuse them
(`pulseRows_apart`), but NEC, which shares NECext's timings; and each packed word carries its fields. -/
theorem namedPulseFramesDecode : Obligations.NamedPulseFramesDecode := by
  refine ⟨fun s l name row data hfault hparams hmem hfamily hdata hvalid hseq => ?frame, fun s l hfault hparams =>
    ⟨fun a c => roundTrip_nec hfault hparams, fun a c => exec_encNecext_decMatch hfault hparams,
      fun a c => roundTrip_samsung32 hfault hparams,
      fun a c ha hc hda hdc => ⟨fun i name n => roundTrip_sirc hfault hparams ha hc hda hdc,
        roundTrip_kaseikyo hfault hparams ha hc hda hdc⟩⟩⟩
  case frame =>
    have hrow := mem_pulseRows hmem hfamily
    by_cases hname : name = necextName
    · subst hname
      obtain rfl := eq_necextSpec_of_mem hrow
      rw [exec_decMatch_necext hfault hparams hdata hseq]
      by_cases hnec : validFrame l necName (bitrev 32 data) = true
      · rw [if_pos hnec, if_pos ⟨rfl, hnec⟩]
        rfl
      · rw [if_neg hnec, if_neg fun h => hnec h.2]
        rfl
    · rw [if_neg fun h => hname h.1]
      exact exec_decMatch_pulse hfault hparams hrow hname hdata hvalid hseq

end Sys2Proof.Machine
end

section
/-! PROOFS. RC5 and RC6 frames decode to their own name and word (O50). -/

namespace Sys2Proof.Machine

/-! ## The biphase rows of the default table (10_state.md R30) -/

theorem biphaseFits_rc5 (l : Rc5Layout) : BiphaseFits (rc5Spec l) :=
  ⟨by simp [rc5Spec], by simp [rc5Spec], by simp [rc5Spec], fun hmark => absurd rfl hmark⟩

theorem biphaseFits_rc6 : BiphaseFits rc6Spec := ⟨by decide, by decide, by decide, fun _ => by decide⟩

/-- An RC5 word that passes its check starts with a 1, which is sent active first. -/
theorem bitSent_rc5_first {l : Rc5Layout} {data : Nat} (hvalid : validFrame l rc5Name data = true) :
    bitSent (rc5Spec l) data (rc5Spec l).nbits 0 = (rc5Spec l).oneActiveFirst := by
  cases l with
  | listed15 => exact ((validFrame_rc5_listed15 data).mp hvalid).1
  | std14 => exact (validFrame_rc5_std14 data).mp hvalid

section
variable {l : Rc5Layout} {data : Nat}

theorem decodeRow_rc5 (hvalid : validFrame l rc5Name data = true) (hdata : data < 2 ^ (rc5Spec l).nbits) :
    decodeRow 25 (rc5Spec l) (fam (rc5Spec l) data (rc5Spec l).nbits) = some data :=
  (decBiphase_famBiphase (biphaseFits_rc5 l) (fun _ _ => bitSent_rc5_first hvalid) 25).trans
    (congrArg some (Nat.mod_eq_of_lt hdata))

theorem decodeRow_rc6 (hdata : data < 2 ^ 20) : decodeRow 25 rc6Spec (fam rc6Spec data 20) = some data :=
  (decBiphase_famBiphase biphaseFits_rc6 nofun 25).trans (congrArg some (Nat.mod_eq_of_lt hdata))

/-- An RC5 frame begins with one half-period. -/
theorem fam_rc5_eq_cons (hvalid : validFrame l rc5Name data = true) :
    ∃ rest, fam (rc5Spec l) data (rc5Spec l).nbits = 889 :: rest := by
  refine famBiphase_of_no_header (biphaseFits_rc5 l) (fun _ _ => bitSent_rc5_first hvalid) rfl ?_
  cases l <;> decide

/-- An RC6 frame begins with its header, whose space may run on into the first bit. -/
theorem fam_rc6_eq_cons (data : Nat) : ∃ e rest, fam rc6Spec data 20 = 2666 :: e :: rest ∧ 889 ≤ e :=
  famBiphase_of_header biphaseFits_rc6 nofun (by decide)

/-- No pulse row has a header as short as an RC5 half-period. -/
theorem rowRejects_rc5_frame {r : Text × ProtocolSpec} (hr : r ∈ pulseRows)
    (hvalid : validFrame l rc5Name data = true) :
    RowRejects (paramsFor l) (fam (rc5Spec l) data (rc5Spec l).nbits) r := by
  have hfar : ∀ r ∈ pulseRows, near 25 889 r.2.headerMark = false := by decide
  obtain ⟨rest, hseq⟩ := fam_rc5_eq_cons hvalid
  refine rowRejects_of_none ((pulseRow_of_mem hr).decodeRow_eq_none (.inr (.inl ?_)))
  rw [hseq]
  exact hfar r hr

theorem near_imp_le {tol m n : Nat} (h : near tol m n = true) : 100 * m ≤ (100 + tol) * n := by
  obtain ⟨hover, _⟩ := (near_iff tol m n).mp h
  rw [Nat.add_mul]
  omega

/-- Every pulse row has a longer frame than RC6, or a header space below RC6's beyond the tolerance. -/
theorem rowRejects_rc6_frame {r : Text × ProtocolSpec} (hr : r ∈ pulseRows) :
    RowRejects (paramsFor l) (fam rc6Spec data 20) r := by
  have hfar : ∀ r ∈ pulseRows, 43 < pulseLength r.2 ∨ (100 + 25) * r.2.headerSpace < 100 * 889 := by decide
  have hlength : (fam rc6Spec data 20).length ≤ 43 := length_famBiphase_le biphaseFits_rc6 nofun
  obtain ⟨e, rest, hseq, he⟩ := fam_rc6_eq_cons data
  refine rowRejects_of_none ((pulseRow_of_mem hr).decodeRow_eq_none
    ((hfar r hr).imp (fun hlong => by omega) fun hshort => ?_))
  rw [hseq]
  refine .inr (Bool.eq_false_iff.mpr fun hnear => ?_)
  have hle := near_imp_le (m := e) hnear
  omega

theorem level2_of_first {d t2 : Nat} (h : t2 < 2 * d) (rest : List Nat) : level2 (d :: rest) t2 = .mark := if_pos h

/-- RC5's first bit would lie inside RC6's header mark. -/
theorem rowRejects_rc5_of_rc6_frame : RowRejects (paramsFor l) (fam rc6Spec data 20) (rc5Name, rc5Spec l) := by
  intro d hd
  have hdecode : decBiphase 25 (rc5Spec l) (fam rc6Spec data 20) = some d := hd
  obtain ⟨t0, hstart, _, _, hbits, _⟩ := decBiphase_eq_some_iff.mp hdecode
  obtain rfl := hstart rfl
  obtain ⟨hdiffer, _⟩ := hbits 0 (by cases l <;> decide)
  obtain ⟨e, rest, hseq, _⟩ := fam_rc6_eq_cons data
  have hearly : 2 * 0 + halfPeriod (rc5Spec l) 0 < 2 * 2666 := by cases l <;> decide
  have hlate : 2 * 0 + 3 * halfPeriod (rc5Spec l) 0 < 2 * 2666 := by cases l <;> decide
  rw [HalvesDiffer, bitStart_zero, hseq, level2_of_first hearly, level2_of_first hlate] at hdiffer
  exact absurd rfl hdiffer

end

/-! ## DEC.MATCH of a biphase frame -/

section
variable {s : State} {l : Rc5Layout} (hfault : s.fault = false) (hparams : s.params = paramsFor l) {data : Nat}
include hfault hparams

theorem exec_decMatch_rc5 (hdata : data < 2 ^ (rc5Spec l).nbits) (hvalid : validFrame l rc5Name data = true)
    (hseq : s.seq = fam (rc5Spec l) data (rc5Spec l).nbits) :
    exec .decMatch s = .next { s with result := .ok, value := .decoded rc5Name data (rc5Spec l).nbits } := by
  obtain ⟨rest, hcons⟩ := fam_rc5_eq_cons hvalid
  refine exec_decMatch_of_row hfault hparams (defaultTable_eq l) ?_ (fun r hr => ?_)
    (hseq ▸ decodeRow_rc5 hvalid hdata) hvalid
  · rw [hseq, hcons]
    exact List.cons_ne_nil _ _
  · rw [hseq]
    exact rowRejects_rc5_frame hr hvalid

theorem exec_decMatch_rc6 (hdata : data < 2 ^ 20) (hvalid : validFrame l rc6Name data = true)
    (hseq : s.seq = fam rc6Spec data 20) :
    exec .decMatch s = .next { s with result := .ok, value := .decoded rc6Name data 20 } := by
  obtain ⟨e, rest, hcons, _⟩ := fam_rc6_eq_cons data
  have htable : defaultTable l = (pulseRows ++ [(rc5Name, rc5Spec l)]) ++ (rc6Name, rc6Spec) :: [] := by
    rw [defaultTable_eq, List.append_assoc]
    rfl
  refine exec_decMatch_of_row (row := rc6Spec) hfault hparams htable ?_ (fun r hr => ?_)
    (hseq ▸ decodeRow_rc6 hdata) hvalid
  · rw [hseq, hcons]
    exact List.cons_ne_nil _ _
  · rw [hseq]
    rcases List.mem_append.mp hr with hr | hr
    · exact rowRejects_rc6_frame hr
    · rw [List.mem_singleton.mp hr]
      exact rowRejects_rc5_of_rc6_frame

end

/-! ## The packed words carry their fields (42_encoder_protocols.md R173, R174; 45_normalizer_decode.md R258) -/

/-- The field bit tells the command's seventh bit. -/
theorem rc5_command_offset (x : Nat) : (if x % 2 = 1 then 0 else 64) = 64 * (1 - x % 2) := by
  split <;> omega

theorem recover_rc5_listed15 (d : Nat) : recover .listed15 rc5Name d = some (.rc5 (d / 2 ^ 12 % 2) (d / 2 ^ 11 % 2)
    (d / 2 ^ 6 % 2 ^ 5) (d % 2 ^ 6 + 64 * (1 - d / 2 ^ 11 % 2))) := by
  simp [recover, rc5Name, necextName, necName, Nat.shiftRight_eq_div_pow, rc5_command_offset]

theorem recover_rc5_std14 (d : Nat) : recover .std14 rc5Name d = some (.rc5 (d / 2 ^ 11 % 2) (d / 2 ^ 12 % 2)
    (d / 2 ^ 6 % 2 ^ 5) (d % 2 ^ 6 + 64 * (1 - d / 2 ^ 12 % 2))) := by
  simp [recover, rc5Name, necextName, necName, Nat.shiftRight_eq_div_pow, rc5_command_offset]

theorem recover_rc6 (l : Rc5Layout) (d : Nat) :
    recover l rc6Name d = some (.rc6 (d / 2 ^ 16 % 2) (d / 2 ^ 8 % 2 ^ 8) (d % 2 ^ 8)) := by
  simp [recover, rc6Name, rc5Name, necextName, necName, byteAt_eq, Nat.shiftRight_eq_div_pow]

theorem rc5Word_spec (l : Rc5Layout) (a c : Nat) : rc5Word l a c < 2 ^ (rc5Spec l).nbits ∧
    validFrame l rc5Name (rc5Word l a c) = true ∧ recover l rc5Name (rc5Word l a c) =
      some (.rc5 0 (rc5Field c) (a % 2 ^ 5) (c % 2 ^ 6 + 64 * (1 - rc5Field c))) := by
  have hfield := rc5Field_le c
  cases l with
  | listed15 =>
    rw [validFrame_rc5_listed15, recover_rc5_listed15, rc5Word_listed15, ← two_pow_mul_rc5Field]
    generalize hw : 2 ^ 14 + 2 ^ 13 + 2 ^ 11 * rc5Field c + 2 ^ 6 * (a % 32) + c % 64 = w
    have htoggle : w / 2 ^ 12 % 2 = 0 := by omega
    have hbit : w / 2 ^ 11 % 2 = rc5Field c := by omega
    have haddr : w / 2 ^ 6 % 2 ^ 5 = a % 2 ^ 5 := by omega
    have hcmd : w % 2 ^ 6 = c % 2 ^ 6 := by omega
    rw [htoggle, hbit, haddr, hcmd]
    refine ⟨?_, ⟨?_, ?_⟩, rfl⟩
    · change w < 2 ^ 15
      omega
    · rw [Nat.testBit_eq_decide_div_mod_eq, decide_eq_true_iff]
      omega
    · rw [Nat.testBit_eq_decide_div_mod_eq, decide_eq_true_iff]
      omega
  | std14 =>
    rw [validFrame_rc5_std14, recover_rc5_std14, rc5Word_std14, ← two_pow_mul_rc5Field]
    generalize hw : 2 ^ 13 + 2 ^ 12 * rc5Field c + 2 ^ 6 * (a % 32) + c % 64 = w
    have htoggle : w / 2 ^ 11 % 2 = 0 := by omega
    have hbit : w / 2 ^ 12 % 2 = rc5Field c := by omega
    have haddr : w / 2 ^ 6 % 2 ^ 5 = a % 2 ^ 5 := by omega
    have hcmd : w % 2 ^ 6 = c % 2 ^ 6 := by omega
    rw [htoggle, hbit, haddr, hcmd]
    refine ⟨?_, ?_, rfl⟩
    · change w < 2 ^ 14
      omega
    · rw [Nat.testBit_eq_decide_div_mod_eq, decide_eq_true_iff]
      omega

theorem rc6Word_spec {l : Rc5Layout} {a c : Nat} (ha : a < 256) (hc : c < 256) : rc6Word a c < 2 ^ 20 ∧
    validFrame l rc6Name (rc6Word a c) = true ∧ recover l rc6Name (rc6Word a c) = some (.rc6 0 a c) := by
  rw [validFrame_rc6, recover_rc6, rc6Word_eq a hc]
  refine ⟨by omega, by omega, ?_⟩
  congr 2 <;> omega

/-! ## The encoders of the biphase protocols -/

section
variable {s : State} {l : Rc5Layout} (hfault : s.fault = false) (hparams : s.params = paramsFor l) {a c : Nat}
  (ha : firstByte s.cmd.address = some a) (hc : firstByte s.cmd.command = some c)
include hfault hparams ha hc

theorem roundTrip_rc5 : RoundTrip l .encRc5 rc5Name (rc5Bits l)
    (.rc5 0 (rc5Field c) (a % 2 ^ 5) (c % 2 ^ 6 + 64 * (1 - rc5Field c))) s := by
  obtain ⟨hdata, hvalid, hrecover⟩ := rc5Word_spec l a c
  exact roundTrip_of_decodes (row := rc5Spec l) hfault hparams .rc5 rfl ha hc rfl
    (fun _ hfault' hparams' hseq => exec_decMatch_rc5 hfault' hparams' hdata hvalid hseq) hrecover

theorem roundTrip_rc6 : RoundTrip l .encRc6 rc6Name 20 (.rc6 0 a c) s := by
  obtain ⟨hdata, hvalid, hrecover⟩ := rc6Word_spec (l := l) (firstByte_lt ha) (firstByte_lt hc)
  exact roundTrip_of_decodes (row := rc6Spec) hfault hparams .rc6 rfl ha hc rfl
    (fun _ hfault' hparams' hseq => exec_decMatch_rc6 hfault' hparams' hdata hvalid hseq) hrecover

end

theorem eq_biphase_of_mem {l : Rc5Layout} {r : Text × ProtocolSpec} (h : r ∈ defaultTable l)
    (hfamily : r.2.family = .biphase) : r = (rc5Name, rc5Spec l) ∨ r = (rc6Name, rc6Spec) := by
  rw [defaultTable_eq, List.mem_append, List.mem_pair] at h
  exact h.resolve_left fun hpulse => (pulseRow_of_mem hpulse).family hfamily

/-- Settles O50: the pulse rows refuse both frames (`rowRejects_rc5_frame`, `rowRejects_rc6_frame`) and RC5 that of RC6
(`rowRejects_rc5_of_rc6_frame`); each row reads its own (`decBiphase_famBiphase`), and the packed words carry their
fields. -/
theorem namedBiphaseFramesDecode : Obligations.NamedBiphaseFramesDecode := by
  refine ⟨fun s l name row data hfault hparams hmem hfamily hdata hvalid hseq => ?frame,
    fun s l a c field hfault hparams ha hc hfield => ⟨?rc5, roundTrip_rc6 hfault hparams ha hc⟩,
    fun d field => ⟨fun h => h ▸ recover_rc5_listed15 d, fun h => h ▸ recover_rc5_std14 d⟩⟩
  case frame =>
    rcases eq_biphase_of_mem hmem hfamily with heq | heq <;> obtain ⟨rfl, rfl⟩ := Prod.mk.inj heq
    · exact exec_decMatch_rc5 hfault hparams hdata hvalid hseq
    · exact exec_decMatch_rc6 hfault hparams hdata hvalid hseq
  case rc5 =>
    subst hfield
    cases l <;> exact roundTrip_rc5 hfault hparams ha hc

end Sys2Proof.Machine
end

section
/-! PROOFS. The record reader: the lines of a file, the key lines, the records of R281, and RPL.LOAD (O56). -/

namespace Sys2Proof.Machine

/-! ## The lines of a text (46_session.md R282) -/

@[simp] theorem linesOf_nil : linesOf [] = [] := rfl

theorem linesFrom_cons {c : Char} (h : c ≠ '\n') (acc rest : Text) :
    linesFrom acc (c :: rest) = linesFrom (c :: acc) rest := by
  cases acc <;> exact if_neg h

/-- Characters that are no line break go on with the open line. -/
theorem linesFrom_append {w : Text} (hw : '\n' ∉ w) (acc rest : Text) :
    linesFrom acc (w ++ rest) = linesFrom (w.reverse ++ acc) rest := by
  induction w generalizing acc with
  | nil => rfl
  | cons c w ih =>
    obtain ⟨hc, hw⟩ := List.ne_and_not_mem_of_not_mem_cons hw
    rw [List.cons_append, linesFrom_cons hc.symm, ih hw, List.reverse_cons, List.append_assoc,
      List.singleton_append]

/-- A line break ends the open line, a CR before it removed. -/
theorem linesFrom_break (acc rest : Text) : linesFrom acc ('\n' :: rest) =
    (if acc.head? = some '\r' then acc.tail else acc).reverse :: linesOf rest := by
  cases acc with
  | nil => rfl
  | cons c acc =>
    by_cases hc : c = '\r'
    · subst hc
      rfl
    · simp [linesFrom, linesOf, hc]

theorem linesOf_line_lf {l : Text} (hbreak : '\n' ∉ l) (hcr : l.getLast? ≠ some '\r') (rest : Text) :
    linesOf (l ++ '\n' :: rest) = l :: linesOf rest := by
  rw [linesOf, linesFrom_append hbreak, List.append_nil, linesFrom_break, List.head?_reverse, if_neg hcr,
    List.reverse_reverse]

theorem linesOf_line_crlf {l : Text} (hbreak : '\n' ∉ l) (rest : Text) :
    linesOf (l ++ '\r' :: '\n' :: rest) = l :: linesOf rest := by
  rw [linesOf, linesFrom_append hbreak, List.append_nil, linesFrom_cons (by decide), linesFrom_break,
    List.head?_cons, if_pos rfl, List.tail_cons, List.reverse_reverse]

/-- Lines written to a file, each with its line break, are the lines of the file, before whatever follows. -/
theorem linesOf_fileOf_append {lf : Text} (hlf : lf = ['\n'] ∨ lf = ['\r', '\n']) {lines : List Text}
    (h : ∀ l ∈ lines, '\n' ∉ l ∧ l.getLast? ≠ some '\r') (rest : Text) :
    linesOf (fileOf lf lines ++ rest) = lines ++ linesOf rest := by
  induction lines with
  | nil => rfl
  | cons l lines ih =>
    obtain ⟨⟨hbreak, hcr⟩, hlines⟩ := List.forall_mem_cons.mp h
    rw [fileOf, List.flatMap_cons, List.append_assoc, List.append_assoc, List.cons_append, ← ih hlines]
    rcases hlf with rfl | rfl
    · exact linesOf_line_lf hbreak hcr _
    · exact linesOf_line_crlf hbreak _

theorem linesOf_fileOf {lf : Text} (hlf : lf = ['\n'] ∨ lf = ['\r', '\n']) {lines : List Text}
    (h : ∀ l ∈ lines, '\n' ∉ l ∧ l.getLast? ≠ some '\r') : linesOf (fileOf lf lines) = lines := by
  have := linesOf_fileOf_append hlf h []
  rwa [List.append_nil, linesOf_nil, List.append_nil] at this

/-! ## Outer spaces (30_encoding.md R97) -/

theorem dropWhile_space {v : Text} (h : v.head? ≠ some ' ') : v.dropWhile (· = ' ') = v := by
  cases v with
  | nil => rfl
  | cons c v => exact List.dropWhile_cons_of_neg (by simpa using h)

theorem trim_cons_space (v : Text) : trim (' ' :: v) = trim v := rfl

/-- A value between spaces, itself without outer spaces, is what trimming leaves. -/
theorem trim_padded {v a b : Text} (hspaces : ∀ c ∈ a ++ b, c = ' ') (hhead : v.head? ≠ some ' ')
    (hlast : v.getLast? ≠ some ' ') : trim (a ++ v ++ b) = v := by
  have hpad : ∀ c ∈ a ++ b, decide (c = ' ') = true := fun c hc => decide_eq_true (hspaces c hc)
  obtain ⟨ha, hb⟩ := List.forall_mem_append.mp hpad
  rw [trim, List.append_assoc, List.dropWhile_append_of_pos ha]
  cases v with
  | nil => rw [List.nil_append, List.dropWhile_eq_nil_iff.mpr hb]; rfl
  | cons c v =>
    rw [dropWhile_space (v := c :: v ++ b) hhead, List.reverse_append,
      List.dropWhile_append_of_pos (fun d hd => hb d (List.mem_reverse.mp hd)),
      dropWhile_space (by rwa [List.head?_reverse]), List.reverse_reverse]

theorem trim_of_tight {v : Text} (hhead : v.head? ≠ some ' ') (hlast : v.getLast? ≠ some ' ') : trim v = v := by
  have := trim_padded (a := []) (b := []) (by simp) hhead hlast
  rwa [List.nil_append, List.append_nil] at this

@[simp] theorem trim_decimal (n : Nat) : trim (decimal n) = decimal n :=
  trim_of_tight (fun hhead => space_notMem_decimal n (List.mem_of_head? hhead))
    (fun hlast => space_notMem_decimal n (List.mem_of_getLast? hlast))

/-! ## Key lines (30_encoding.md R97) -/

theorem afterPrefix_eq_some_iff {pre line v : Text} : afterPrefix pre line = some v ↔ pre ++ v = line := by
  induction pre generalizing line with
  | nil => simp [afterPrefix, eq_comm]
  | cons p pre ih =>
    cases line with
    | nil => simp [afterPrefix]
    | cons c line =>
      by_cases h : p = c
      · simp [afterPrefix, h, ih]
      · simp [afterPrefix, h]

/-- No key of the table begins another, so a line with a key in front is that key's line. -/
theorem keyLine_key {k : Text × KeyField} (hk : k ∈ keyTable) (v : Text) :
    keyLine (k.1 ++ v) = some (k.2, trim v) := by
  simp only [keyTable, List.mem_cons, List.not_mem_nil, or_false] at hk
  rcases hk with rfl | rfl | rfl | rfl | rfl | rfl | rfl | rfl | rfl | rfl <;> rfl

theorem keyLine_eq_none {line : Text} (h : ∀ k ∈ keyTable, ¬k.1 <+: line) : keyLine line = none := by
  rw [keyLine, List.findSome?_eq_none_iff]
  intro k hk
  rw [Option.map_eq_none_iff, Option.eq_none_iff_forall_not_mem]
  exact fun v hv => h k hk ⟨v, afterPrefix_eq_some_iff.mp hv⟩

theorem keyTable_no_terminator {k : Text × KeyField} (hk : k ∈ keyTable) (v : Text) : ¬Terminator (k.1 ++ v) := by
  simp only [keyTable, List.mem_cons, List.not_mem_nil, or_false] at hk
  rcases hk with rfl | rfl | rfl | rfl | rfl | rfl | rfl | rfl | rfl | rfl <;> simp [Terminator]

/-- A later value of a field replaces the earlier. -/
theorem setField_setField (k : KeyField) (v w : Text) (c : Command) :
    setField k w (setField k v c) = setField k w c := by
  cases k <;> rfl

/-! ## The reader, line by line (30_encoding.md R98, 46_session.md R281) -/

/-- What a line inside a record does: a key line sets its field, any other line is ignored. -/
def readLine (path : Text) (r : Reader) (line : Text) : Reader :=
  match keyLine line with
  | some (k, v) => readKey path k v r
  | none => r

section
variable (path : Text)

theorem readLine_key {k : Text × KeyField} (hk : k ∈ keyTable) (v : Text) (r : Reader) :
    readLine path r (k.1 ++ v) = readKey path k.2 (trim v) r := by
  rw [readLine, keyLine_key hk]

theorem readLine_ignored {line : Text} (h : ∀ k ∈ keyTable, ¬k.1 <+: line) (r : Reader) :
    readLine path r line = r := by
  rw [readLine, keyLine_eq_none h]

/-- A `#` line emits the open record, if there is one, and the reader starts anew. -/
theorem parseFrom_terminator (r : Reader) (x : Text) (rest : List Text) :
    parseFrom path r (('#' :: x) :: rest) = (if r.isOpen then [r.cur] else []) ++ parse rest path := by
  rw [parseFrom]
  cases r.isOpen <;> rfl

theorem parseFrom_line {line : Text} (h : ¬Terminator line) (r : Reader) (rest : List Text) :
    parseFrom path r (line :: rest) = parseFrom path (readLine path r line) rest := by
  rw [parseFrom.eq_def]
  simp only
  split
  · exact absurd rfl h
  · rw [readLine]
    cases keyLine line <;> rfl

/-- Lines without a `#` line only change the reader. -/
theorem parseFrom_open {lines : List Text} (h : ∀ l ∈ lines, ¬Terminator l) (r : Reader) (rest : List Text) :
    parseFrom path r (lines ++ rest) = parseFrom path (lines.foldl (readLine path) r) rest := by
  induction lines generalizing r with
  | nil => rfl
  | cons line lines ih =>
    obtain ⟨hline, hlines⟩ := List.forall_mem_cons.mp h
    rw [List.cons_append, parseFrom_line path hline, ih hlines, List.foldl_cons]

/-- What comes after common lines matters only by what the reader makes of it. -/
theorem parseFrom_append_congr {a b : List Text} (h : ∀ r, parseFrom path r a = parseFrom path r b)
    (before : List Text) (r : Reader) : parseFrom path r (before ++ a) = parseFrom path r (before ++ b) := by
  induction before generalizing r with
  | nil => exact h r
  | cons line before ih =>
    by_cases hline : Terminator line
    · obtain ⟨x, rfl⟩ := List.head?_eq_some_iff.mp hline
      simp only [List.cons_append, parseFrom_terminator, parse, ih]
    · simp only [List.cons_append, parseFrom_line path hline, ih]

/-! ## Records (46_session.md R281) -/

@[simp] theorem parse_nil : parse [] path = [] := rfl

/-- A record without its `#` line is dropped. -/
theorem parse_open {lines : List Text} (h : ∀ l ∈ lines, ¬Terminator l) : parse lines path = [] := by
  rw [parse, ← List.append_nil lines, parseFrom_open path h, parseFrom]

/-- A `#` line ends the record; the next starts with a fresh reader. -/
theorem parse_record {lines : List Text} (h : ∀ l ∈ lines, ¬Terminator l) (x : Text) (after : List Text) :
    parse (lines ++ ('#' :: x) :: after) path = parse (lines ++ [['#']]) path ++ parse after path := by
  simp only [parse, parseFrom_open path h, parseFrom_terminator]
  rw [parseFrom, List.append_nil]

/-- A `#` line with no record open emits nothing. -/
theorem parse_terminator (x : Text) (after : List Text) : parse (('#' :: x) :: after) path = parse after path :=
  parseFrom_terminator path _ x after

/-- A record of one key line. -/
theorem parse_keyLine {k : Text × KeyField} (hk : k ∈ keyTable) {v a b : Text} (hspaces : ∀ c ∈ a ++ b, c = ' ')
    (hhead : v.head? ≠ some ' ') (hlast : v.getLast? ≠ some ' ') (x : Text) :
    parse [k.1 ++ a ++ v ++ b, '#' :: x] path = [setField k.2 v (blankCommand path)] := by
  have hline : k.1 ++ a ++ v ++ b = k.1 ++ (a ++ v ++ b) := by simp only [List.append_assoc]
  rw [parse, hline, parseFrom_line path (keyTable_no_terminator hk _), readLine_key path hk,
    trim_padded hspaces hhead hlast, parseFrom_terminator, parse_nil]
  simp [readKey, freshReader]

/-- A record of key lines: each sets its field in turn. -/
theorem parse_keyLines {lines : List ((Text × KeyField) × Text)} (h : ∀ e ∈ lines, e.1 ∈ keyTable) (x : Text)
    (r : Reader) (hr : r = lines.foldl (fun r e => readKey path e.1.2 (trim e.2) r) (freshReader path)) :
    parse (lines.map (fun e => e.1.1 ++ e.2) ++ ['#' :: x]) path = if r.isOpen then [r.cur] else [] := by
  have hlines : ∀ l ∈ lines.map (fun e => e.1.1 ++ e.2), ¬Terminator l := by
    rintro _ hl
    obtain ⟨e, he, rfl⟩ := List.mem_map.mp hl
    exact keyTable_no_terminator (h e he) e.2
  have hread : (lines.map (fun e => e.1.1 ++ e.2)).foldl (readLine path) (freshReader path) = r := by
    rw [List.foldl_map, hr]
    exact List.foldl_ext _ _ _ fun r e he => readLine_key path (h e he) e.2 r
  rw [parse, parseFrom_open path hlines, hread, parseFrom_terminator, parse_nil, List.append_nil]

/-- A `name:` line is seen, and stays seen until the record ends. -/
theorem foldl_readLine_named {lines : List Text} {r : Reader}
    (h : r.named = true ∨ ∃ l ∈ lines, ['n', 'a', 'm', 'e', ':'] <+: l) :
    (lines.foldl (readLine path) r).named = true := by
  induction lines generalizing r with
  | nil => simpa using h
  | cons line lines ih =>
    refine ih ?_
    rcases h with hnamed | ⟨l, hl, hname⟩
    · left
      rw [readLine]
      cases keyLine line with
      | none => exact hnamed
      | some kv => simp [readKey, hnamed]
    · rcases List.mem_cons.mp hl with rfl | hl
      · left
        obtain ⟨v, rfl⟩ := hname
        rw [readLine_key path (k := (_, .name)) (by simp [keyTable])]
        simp [readKey]
      · exact .inr ⟨l, hl, hname⟩

/-- A second `name:` drops the open record: the reader is as after a first one. -/
theorem readKey_second_name {r : Reader} (h : r.named = true) (v : Text) :
    readKey path .name v r = readKey path .name v (freshReader path) := by
  simp [readKey, freshReader, h]

theorem parse_second_name {lines : List Text} (h : ∀ l ∈ lines, ¬Terminator l)
    (hname : ∃ l ∈ lines, ['n', 'a', 'm', 'e', ':'] <+: l) (v : Text) (after : List Text) :
    parse (lines ++ (['n', 'a', 'm', 'e', ':'] ++ v) :: after) path =
      parse ((['n', 'a', 'm', 'e', ':'] ++ v) :: after) path := by
  have hkey : (['n', 'a', 'm', 'e', ':'], KeyField.name) ∈ keyTable := by simp [keyTable]
  have hline := keyTable_no_terminator hkey v
  simp only [parse, parseFrom_open path h, parseFrom_line path hline]
  rw [readLine_key path hkey, readLine_key path hkey, readKey_second_name path (foldl_readLine_named path (.inr hname))]

/-- A later line of a key other than `name:` replaces the earlier. -/
theorem parse_repeated_key {k : Text × KeyField} (hk : k ∈ keyTable) (hother : k.2 ≠ .name) (v w : Text)
    (before after : List Text) :
    parse (before ++ (k.1 ++ v) :: (k.1 ++ w) :: after) path = parse (before ++ (k.1 ++ w) :: after) path := by
  refine parseFrom_append_congr path (fun r => ?_) before _
  simp only [parseFrom_line path (keyTable_no_terminator hk _), readLine_key path hk]
  simp [readKey, hother, setField_setField]

theorem parse_ignored {line : Text} (hline : ¬Terminator line) (h : ∀ k ∈ keyTable, ¬k.1 <+: line)
    (before after : List Text) : parse (before ++ line :: after) path = parse (before ++ after) path :=
  parseFrom_append_congr path
    (fun r => by rw [parseFrom_line path hline, readLine_ignored path h]) before _

end

/-! ## RPL.LOAD (46_session.md R276) -/

section
variable {s : State}

theorem exec_rplLoad (hfault : s.fault = false) : exec .rplLoad s = .next (finish (rplLoad s.args.path s)) :=
  issue_of_usable (fun s => rplLoad s.args.path s) hfault

theorem readLines_of_none (h : (drawRead s).1 = none) (path : Text) : readLines path s = (none, (drawRead s).2) := by
  rw [readLines]
  simp only [h]

theorem readLines_of_some {unknown : Text} (h : (drawRead s).1 = some unknown) (path : Text) :
    readLines path s = (some (linesOf ((s.storage.lookup path).getD unknown)), (drawRead s).2) := by
  rw [readLines]
  simp only [h, drawRead_storage]

theorem rplLoad_of_none (h : (drawRead s).1 = none) (path : Text) :
    rplLoad path s = raise .eStorage (drawRead s).2 := by
  simp only [rplLoad, readLines_of_none h]

theorem rplLoad_of_some {unknown : Text} (h : (drawRead s).1 = some unknown) (path : Text) :
    rplLoad path s = done { (drawRead s).2 with
      cat := (parse (linesOf ((s.storage.lookup path).getD unknown)) path).take 100 } := by
  simp only [rplLoad, readLines_of_some h, Config.loadCap]

end

/-! ## The keys as the statement writes them -/

/-- A key other than `name:` sets a field other than the name. -/
theorem exists_keyTable_other : ∀ key ∈ ["type:", "protocol:", "address:", "command:", "data:", "frequency:", "bits:"],
    ∃ k ∈ keyTable, k.1 = key.toList ∧ k.2 ≠ .name := by
  decide

/-- The keys the statement lists are all there are. -/
theorem exists_key_of_mem_keyTable : ∀ k ∈ keyTable, ∃ key ∈ ["name:", "type:", "protocol:", "address:", "command:",
    "data:", "value:", "state:", "frequency:", "bits:"], key.toList = k.1 := by
  decide

/-- Each key of a text field sets its field. -/
theorem exists_keyTable_text {key : String} {c blank : Command} {v : Text}
    (h : (key, c) ∈ [("name:", setField .name v blank), ("type:", setField .type v blank),
      ("protocol:", setField .protocol v blank), ("address:", setField .address v blank),
      ("command:", setField .command v blank), ("data:", setField .data v blank), ("value:", setField .data v blank),
      ("state:", setField .data v blank)]) :
    ∃ f, (key.toList, f) ∈ keyTable ∧ c = setField f v blank := by
  simp only [List.mem_cons, List.not_mem_nil, or_false, Prod.mk.injEq] at h
  rcases h with ⟨rfl, rfl⟩ | ⟨rfl, rfl⟩ | ⟨rfl, rfl⟩ | ⟨rfl, rfl⟩ | ⟨rfl, rfl⟩ | ⟨rfl, rfl⟩ | ⟨rfl, rfl⟩ | ⟨rfl, rfl⟩ <;>
    exact ⟨_, by simp [keyTable], rfl⟩

/-- A number that is missing or holds another character is bad (R97). -/
theorem decimalValue_of_bad {v : Text} (h : v = [] ∨ ∃ c ∈ v, c ∉ "0123456789".toList) : decimalValue v = none := by
  rcases h with rfl | ⟨c, hc, hdigit⟩
  · rfl
  · exact decimalValue_eq_none hc (Bool.eq_false_iff.mpr fun h => hdigit (isDigit_iff_mem.mp h))

theorem parse_full_record (path : Text) {name type protocol address command data : Text} (hz bits : Nat)
    (h : ∀ v ∈ [name, type, protocol, address, command, data], v.head? ≠ some ' ' ∧ v.getLast? ≠ some ' ') :
    parse ["name:".toList ++ name, "type:".toList ++ type, "protocol:".toList ++ protocol,
        "address:".toList ++ address, "command:".toList ++ command, "data:".toList ++ data,
        "frequency:".toList ++ Nat.toDigits 10 hz, "bits:".toList ++ Nat.toDigits 10 bits, ['#']] path =
      [{ type := type, protocol := protocol, address := address, command := command, data := data, bits := bits,
         frequency := hz, name := name, path := path }] := by
  have tight : ∀ v ∈ [name, type, protocol, address, command, data], trim v = v :=
    fun v hv => trim_of_tight (h v hv).1 (h v hv).2
  simp only [List.forall_mem_cons] at tight
  obtain ⟨hname, htype, hprotocol, haddress, hcommand, hdata, _⟩ := tight
  refine (parse_keyLines path (lines :=
    [(("name:".toList, .name), name), (("type:".toList, .type), type), (("protocol:".toList, .protocol), protocol),
      (("address:".toList, .address), address), (("command:".toList, .command), command),
      (("data:".toList, .data), data), (("frequency:".toList, .frequency), decimal hz),
      (("bits:".toList, .bits), decimal bits)]) (by simp [keyTable]) [] _ rfl).trans ?_
  simp [readKey, freshReader, blankCommand, setField, hname, htype, hprotocol, haddress, hcommand, hdata,
    decimalValue_decimal]

/-- Settles O56: the reader takes a key line (`readLine_key`), an ignored line (`readLine_ignored`) and a `#` line
(`parseFrom_terminator`), and each clause is a law of PARSE made of the three. -/
theorem loadKeepsHundredRecords : Obligations.LoadKeepsHundredRecords := by
  refine ⟨fun s hfault => ⟨fun hnone => ?closed, fun unknown hsome => ?read⟩,
    fun lf lines hlf hlines => linesOf_fileOf hlf hlines,
    fun path x v a b n blank hspaces hhead hlast hblank => ?keys,
    fun path name type protocol address command data hz bits h => parse_full_record path hz bits h,
    fun path x v w before lines after hlines => ?records⟩
  case closed =>
    rw [exec_rplLoad hfault, rplLoad_of_none hnone]
    rfl
  case read =>
    rw [exec_rplLoad hfault, rplLoad_of_some hsome]
    rfl
  case keys =>
    obtain rfl : blank = blankCommand path := hblank
    have single {k : Text × KeyField} (hk : k ∈ keyTable) := parse_keyLine path hk hspaces hhead hlast x
    have frequency := single (k := ("frequency:".toList, .frequency)) (by simp [keyTable])
    have bits := single (k := ("bits:".toList, .bits)) (by simp [keyTable])
    refine ⟨fun key c hmem => ?_, fun hnumeral => ?_, fun hbad => ?_⟩
    · obtain ⟨f, hk, rfl⟩ := exists_keyTable_text hmem
      exact single hk
    · have hvalue : decimalValue v = some n := hnumeral ▸ decimalValue_decimal n
      rw [frequency, bits, setField, setField, hvalue]
      exact ⟨rfl, rfl⟩
    · rw [frequency, bits, setField, setField, decimalValue_of_bad hbad]
      exact ⟨rfl, rfl⟩
  case records =>
    refine ⟨parse_open path hlines, parse_record path hlines x after, parse_terminator path x after,
      fun hname => parse_second_name path hlines hname v after, fun key hkey => ?_, fun line hline hother => ?_⟩
    · obtain ⟨k, hk, htext, hfield⟩ := exists_keyTable_other key hkey
      rw [← htext]
      exact parse_repeated_key path hk hfield v w before after
    · refine parse_ignored path hline (fun k hk => ?_) before after
      obtain ⟨key, hkey, htext⟩ := exists_key_of_mem_keyTable k hk
      exact htext ▸ hother key hkey

end Sys2Proof.Machine
end

section
/-! PROOFS. The capture session: begin and end (O51), capture (O52), commit and discard (O53), flush (O54), and the
round trip of a flushed file through RPL.LOAD (O55). -/

namespace Sys2Proof.Machine

/-! ## The operations of a block without a fault (60_exceptions.md R309) -/

section
variable {s : State} (hfault : s.fault = false)
include hfault

theorem exec_sesEnter : exec .sesEnter s = .next (finish (sesEnter s.args.rx s)) :=
  issue_of_usable (fun s => sesEnter s.args.rx s) hfault

theorem exec_sesExit : exec .sesExit s = .next (finish (sesExit s)) := issue_of_usable sesExit hfault

theorem exec_sesCapture : exec .sesCapture s = .next (finish (sesCapture s)) := issue_of_usable sesCapture hfault

theorem exec_sesCommit : exec .sesCommit s = .next (finish (sesCommit s.cmd.name s)) :=
  issue_of_usable (fun s => sesCommit s.cmd.name s) hfault

theorem exec_sesDiscard : exec .sesDiscard s = .next (finish (sesDiscard s)) := issue_of_usable sesDiscard hfault

theorem exec_sesFlush : exec .sesFlush s = .next (finish (sesFlush s.args.path s.args.devname s)) :=
  issue_of_usable (fun s => sesFlush s.args.path s.args.devname s) hfault

end

/-! ## SES.ENTER and SES.EXIT (46_session.md R270, R275) -/

/-- A session right after SES.ENTER, or none: without a signal (10_state.md R31). -/
def emptySession (z : SesState) : Session := { state := z, count := 0, last := [], pending := [] }

section
variable {s : State}

theorem sesEnter_of_session (h : s.ses.state ≠ .none) (c : RxConfig) : sesEnter c s = raise .eBadState s := if_pos h

theorem sesEnter_of_started (h : s.ses.state = .none) {c : RxConfig} {t : State} (hinit : rxInit c s = done t) :
    sesEnter c s = done { t with ses := emptySession .idle } := by
  simp [sesEnter, h, hinit, emptySession]

theorem sesEnter_of_refused (h : s.ses.state = .none) {c : RxConfig} {t : State}
    (hinit : rxInit c s = enterFault t) : sesEnter c s = enterFault t := by
  simp [sesEnter, h, hinit]

theorem sesExit_of_none (h : s.ses.state = .none) : sesExit s = done s := if_pos h

theorem sesExit_of_session (h : s.ses.state ≠ .none) : sesExit s =
    done { (rxDeinit { s with cat := [] }).st with ses := emptySession .none } := if_neg h

theorem rxDeinit_st (s : State) : (rxDeinit s).st = { s with rx :=
    if s.rx.state = .uninit then s.rx
    else { s.rx with state := .uninit, cfg := none, queue := .absent, callback := false } } := by
  rcases rxDeinit_cases s with ⟨h, heq⟩ | ⟨h, heq⟩ <;> rw [heq] <;> simp [h]

end

/-- Settles O51: SES.ENTER goes as its RX.INIT goes, SES.EXIT as its RX.DEINIT. -/
theorem sessionEnterAndExit : Obligations.SessionEnterAndExit := by
  intro s hfault
  rw [exec_sesEnter hfault, exec_sesExit hfault]
  refine ⟨fun hses => ?again, fun hnone hinit => ?started, fun hnone huninit hgranted => ?granted,
    fun hnone huninit hrefused => ?refused, fun hnone => ?nothing, fun hses => ?destroyed⟩
  case again => rw [sesEnter_of_session hses]; rfl
  case started => rw [sesEnter_of_started hnone (rxInit_of_initialized hinit _)]; rfl
  case granted => rw [sesEnter_of_started hnone (rxInit_of_granted huninit hgranted _)]; rfl
  case refused => rw [sesEnter_of_refused hnone (rxInit_of_refused huninit hrefused _)]; rfl
  case nothing => rw [sesExit_of_none hnone]; rfl
  case destroyed => rw [sesExit_of_session hses, rxDeinit_st]; rfl

/-! ## The session's rearm (44_receive.md R228, 60_exceptions.md R316) -/

/-- The receive side after a rearm whose refusal is passed over: an idle channel with an empty queue is armed. -/
def rearmed (rx : RxUnit) : RxUnit :=
  if rx.state = .idle ∧ qFull rx = false then { rx with state := .armed } else rx

theorem sesRearm_eq (s : State) : sesRearm s = { s with rx := rearmed s.rx } := by
  rcases rxRearm_cases s with ⟨c, _, heq, hrefused⟩ | ⟨hinit, hempty, harmed, heq⟩ <;> rw [sesRearm, heq]
  · have hkept : rearmed s.rx = s.rx := by
      refine if_neg fun ⟨hidle, hempty⟩ => ?_
      rcases hrefused with h | h | h
      · exact nomatch hidle.symm.trans h
      · exact nomatch hempty.symm.trans h
      · exact nomatch hidle.symm.trans h
    rw [hkept]
    rfl
  · have hidle : s.rx.state = .idle := by
      cases h : s.rx.state with
      | uninit => exact absurd h hinit
      | idle => rfl
      | armed => exact absurd h harmed
    rw [rearmed, if_pos ⟨hidle, hempty⟩]
    rfl

/-- With its queue emptied, an initialized channel ends armed. -/
theorem rearmed_emptied {rx : RxUnit} (h : rx.state ≠ .uninit) :
    rearmed { rx with queue := .empty } = { rx with queue := .empty, state := .armed } := by
  cases hstate : rx.state with
  | uninit => exact absurd hstate h
  | idle | armed => rfl

/-! ## SES.CAPTURE (46_session.md R271) -/

/-- Settles O52: the four ways of `sesCapture_cases`, the held text as joined numerals (`render_eq_intercalate`). -/
theorem sessionCapture : Obligations.SessionCapture := by
  intro s hfault
  rw [exec_sesCapture hfault]
  rcases sesCapture_cases s with ⟨hses, heq⟩ | ⟨hidle, hnone, heq⟩ | ⟨hidle, hinit, b, hfull, hcaptured⟩
  · rw [heq]
    exact ⟨fun _ => rfl, fun h => absurd h hses, fun _ _ h => absurd h hses, fun _ h => absurd h hses⟩
  · have nobatch {b : RawBatch} (hinit : s.rx.state ≠ .uninit) : s.rx.queue ≠ .full b := hnone.resolve_left hinit b
    rw [heq]
    exact ⟨fun h => absurd hidle h, fun _ _ => rfl, fun _ _ _ hinit hfull => absurd hfull (nobatch hinit),
      fun _ _ hinit hfull => absurd hfull (nobatch hinit)⟩
  · have same {b' : RawBatch} (h : s.rx.queue = .full b') : b' = b := Queue.full.inj (h.symm.trans hfull)
    refine ⟨fun h => absurd hidle h, fun _ hnone => absurd hfull (hnone.resolve_left hinit b),
      fun b' q _ _ hfull' hq hne => ?held, fun b' _ _ hfull' hempty => ?dropped⟩
    case held =>
      obtain rfl := same hfull'
      rw [← normalizeBatch_eq_calls] at hq
      subst hq
      rcases hcaptured with ⟨hnil, _⟩ | ⟨_, heq⟩
      · exact absurd hnil hne
      · rw [heq, ← render_eq_intercalate]
        rfl
    case dropped =>
      obtain rfl := same hfull'
      rw [← normalizeBatch_eq_calls] at hempty
      rcases hcaptured with ⟨_, heq⟩ | ⟨hne, _⟩
      · rw [heq, sesRearm_eq, rearmed_emptied hinit]
        rfl
      · exact absurd hempty hne

/-! ## SES.COMMIT and SES.DISCARD (46_session.md R272, R273) -/

section
variable {s : State} {name : Text}

theorem sesCommit_of_refused (h : s.ses.state ≠ .held ∨ lineBreak ∈ name) : sesCommit name s = raise .eBadState s := by
  by_cases hheld : s.ses.state = .held
  · rw [sesCommit, if_neg (not_not_intro hheld), if_pos (h.resolve_left (not_not_intro hheld))]
  · exact if_pos hheld

theorem sesCommit_of_held (h : s.ses.state = .held) (hname : lineBreak ∉ name) : sesCommit name s =
    done { s with
      rx := rearmed s.rx
      ses := { state := .idle, count := s.ses.count + 1, last := s.ses.last,
               pending := s.ses.pending ++ commitBlock s.params.rawDefaultFreq name s.ses.last } } := by
  rw [sesCommit, if_neg (not_not_intro h), if_neg hname, sesRearm_eq]

theorem sesDiscard_of_refused (h : s.ses.state ≠ .held) : sesDiscard s = raise .eBadState s := if_pos h

theorem sesDiscard_of_held (h : s.ses.state = .held) :
    sesDiscard s = done { s with rx := rearmed s.rx, ses := { s.ses with state := .idle } } := by
  rw [sesDiscard, if_neg (not_not_intro h), sesRearm_eq]

end

/-- The block of a commit is the text of a signal (30_encoding.md R96). -/
theorem commitBlock_eq_signalText (hz : Nat) (name data : Text) :
    commitBlock hz name data = signalText hz name data := by
  have htype : "\ntype: raw\nfrequency: ".toList = [lineBreak] ++ commitType ++ commitFreq := by decide
  have hdata : "\nduty_cycle: 0.33\ndata: ".toList = [lineBreak] ++ commitDuty ++ commitData := by decide
  have hend : "\n#\n".toList = [lineBreak] ++ recordEnd := by decide
  have hname : "name: ".toList = commitName := by decide
  unfold signalText
  simp only [commitBlock, htype, hdata, hend, hname, decimal, List.append_assoc]

/-- Settles O53: both operations rearm (`sesRearm_eq`), and the block committed is the signal's text. -/
theorem sessionCommitAndDiscard : Obligations.SessionCommitAndDiscard := by
  intro s rx hfault hrx
  obtain rfl : rx = rearmed s.rx := hrx
  rw [exec_sesCommit hfault, exec_sesDiscard hfault]
  refine ⟨fun hrefused => ?uncommitted, fun hheld hname => ?committed, fun hses => ?kept, fun hheld => ?discarded⟩
  case uncommitted => rw [sesCommit_of_refused hrefused]; rfl
  case committed => rw [sesCommit_of_held hheld hname, commitBlock_eq_signalText]; rfl
  case kept => rw [sesDiscard_of_refused hses]; rfl
  case discarded => rw [sesDiscard_of_held hheld]; rfl

/-! ## SES.FLUSH (46_session.md R274) -/

/-- The storage after `STORE`: the file holds the text, or its content is unknown (46_session.md R282). -/
def storedFiles (path text : Text) (s : State) : List (Text × Text) :=
  storagePut path (if (drawStore s).1 = true then some text else none) s.storage

/-- The state after `STORE`: the draw taken, the files written, the text recorded as handed over. -/
def afterStore (path text : Text) (s : State) : State :=
  { s with
    env := (drawStore s).2.env
    storage := storedFiles path text s
    handed := s.handed ++ [{ path := path, text := text }] }

section
variable {s : State} {path devname : Text}

theorem lookup_storedFiles_self (text : Text) (h : (drawStore s).1 = true) :
    (storedFiles path text s).lookup path = some text := by
  rw [storedFiles, if_pos h, storagePut, lookup_tablePut_self]

theorem lookup_storedFiles_of_ne {other : Text} (h : other ≠ path) (text : Text) :
    (storedFiles path text s).lookup other = s.storage.lookup other :=
  lookup_tablePut_of_ne _ path h _ s.storage

theorem sesFlush_of_refused (h : s.ses.state ≠ .idle ∨ s.ses.count = 0 ∨ lineBreak ∈ devname) :
    sesFlush path devname s = raise .eBadState s := by
  rcases or_assoc.mpr h with hses | hbreak
  · exact if_pos hses
  · exact (apply_ite (· = raise .eBadState s) _ _ _).mpr (by simp [hbreak])

section
variable (hidle : s.ses.state = .idle) (hcount : s.ses.count ≠ 0) (hbreak : lineBreak ∉ devname)
include hidle hcount hbreak

theorem sesFlush_of_stored (hstored : (drawStore s).1 = true) : sesFlush path devname s =
    done { afterStore path (deviceFile devname s.ses.pending) s with
      ses := { s.ses with count := 0, pending := [] } } := by
  simp [sesFlush, hidle, hcount, hbreak, store_eq, hstored, afterStore, storedFiles]

theorem sesFlush_of_not_stored (hrefused : (drawStore s).1 = false) :
    sesFlush path devname s = raise .eStorage (afterStore path (deviceFile devname s.ses.pending) s) := by
  simp [sesFlush, hidle, hcount, hbreak, store_eq, hrefused, afterStore, storedFiles]

end

end

theorem deviceFile_eq (devname pending : Text) : deviceFile devname pending =
    "Filetype: Bruce IR File\nVersion: 1\n#\n# ".toList ++ devname ++ "\n".toList ++ pending := by
  simp [deviceFile, headerFiletype, headerVersion, recordEnd, headerDevice, lineBreak]

/-- Settles O54: a refusal, or `STORE` of the header and the pending text with either answer. -/
theorem sessionFlush : Obligations.SessionFlush := by
  intro s text hfault htext
  rw [← deviceFile_eq] at htext
  subst htext
  rw [exec_sesFlush hfault]
  refine ⟨fun hrefused => ?refused, fun hidle hcount hbreak =>
    ⟨storedFiles s.args.path (deviceFile s.args.devname s.ses.pending) s,
      fun other hne => lookup_storedFiles_of_ne hne _, fun hstored => ⟨lookup_storedFiles_self _ hstored, ?stored⟩,
      fun hkept => ?kept⟩⟩
  case refused => rw [sesFlush_of_refused hrefused]; rfl
  case stored => rw [sesFlush_of_stored hidle hcount hbreak hstored]; rfl
  case kept => rw [sesFlush_of_not_stored hidle hcount hbreak hkept]; rfl

/-! ## The lines of a flushed file (46_session.md R283) -/

/-- The lines of a committed signal's text (30_encoding.md R96). -/
def signalLines (hz : Nat) (name data : Text) : List Text :=
  ["name: ".toList ++ name, "type: raw".toList, "frequency: ".toList ++ decimal hz, "duty_cycle: 0.33".toList,
    "data: ".toList ++ data, "#".toList]

theorem signalText_eq_fileOf (hz : Nat) (name data : Text) :
    signalText hz name data = fileOf ['\n'] (signalLines hz name data) := by
  rw [← commitBlock_eq_signalText]
  simp [commitBlock, commitName, commitType, commitFreq, commitDuty, commitData, recordEnd, lineBreak, signalLines,
    fileOf]

/-- Pending text is a file of the signals' lines. -/
theorem flatMap_signalText (hz : Nat) (signals : List (Text × TimingSeq)) :
    signals.flatMap (fun g => signalText hz g.1 (render g.2)) =
      fileOf ['\n'] (signals.flatMap (fun g => signalLines hz g.1 (render g.2))) := by
  simp only [signalText_eq_fileOf, fileOf, List.flatMap_assoc]

/-- A rendered sequence is digits and spaces (30_encoding.md R108). -/
theorem mem_render {q : List Nat} {c : Char} (h : c ∈ render q) : c = ' ' ∨ c.isDigit = true := by
  match q with
  | [] => cases h
  | [d] => exact .inr (isDigit_of_mem_decimal h)
  | d :: e :: q =>
    rcases List.mem_append.mp h with h | h
    · exact .inr (isDigit_of_mem_decimal h)
    · exact (List.mem_cons.mp h).imp_right mem_render |>.elim .inl id

theorem head?_render_ne_space (q : List Nat) : (render q).head? ≠ some ' ' := by
  have notSpace (d : Nat) : (decimal d).head? ≠ some ' ' := fun h => space_notMem_decimal d (List.mem_of_head? h)
  match q with
  | [] => nofun
  | [d] => exact notSpace d
  | d :: e :: q =>
    rw [render, List.head?_append_of_ne_nil _ (decimal_ne_nil d)]
    exact notSpace d

theorem getLast?_render_ne_space (q : List Nat) : (render q).getLast? ≠ some ' ' := by
  match q with
  | [] => nofun
  | [d] => exact fun h => space_notMem_decimal d (List.mem_of_getLast? h)
  | d :: e :: q =>
    have hne : render (e :: q) ≠ [] := render_ne_nil (List.cons_ne_nil e q)
    rw [render, List.getLast?_append_of_ne_nil _ (List.cons_ne_nil _ _), List.getLast?_cons_of_ne_nil hne]
    exact getLast?_render_ne_space (e :: q)

@[simp] theorem trim_render (q : List Nat) : trim (render q) = render q :=
  trim_of_tight (head?_render_ne_space q) (getLast?_render_ne_space q)

/-- The lines of a signal whose name holds neither line break nor CR hold none either. -/
theorem signalLines_plain {hz : Nat} {name : Text} (hname : '\n' ∉ name ∧ '\r' ∉ name) (q : TimingSeq) :
    ∀ l ∈ signalLines hz name (render q), '\n' ∉ l ∧ '\r' ∉ l := by
  have hdecimal : '\n' ∉ decimal hz ∧ '\r' ∉ decimal hz :=
    ⟨fun h => absurd (isDigit_of_mem_decimal h) (by decide), fun h => absurd (isDigit_of_mem_decimal h) (by decide)⟩
  have hrender : '\n' ∉ render q ∧ '\r' ∉ render q :=
    ⟨fun h => absurd (mem_render h) (by decide), fun h => absurd (mem_render h) (by decide)⟩
  simp [signalLines, hname, hdecimal, hrender]

/-- A line that begins with `#` begins with it in the file as read, a CR at its end removed or not. -/
theorem linesOf_terminator {w : Text} (h : '\n' ∉ w) (rest : Text) :
    ∃ x, linesOf ('#' :: w ++ '\n' :: rest) = ('#' :: x) :: linesOf rest := by
  have hbreak : '\n' ∉ '#' :: w := by simp [h]
  by_cases hcr : ('#' :: w).getLast? = some '\r'
  · obtain ⟨l, hl⟩ := List.getLast?_eq_some_iff.mp hcr
    cases l with
    | nil => cases hl
    | cons c l =>
      obtain ⟨rfl, rfl⟩ := List.cons.inj hl
      refine ⟨l, ?_⟩
      have := linesOf_line_crlf (l := '#' :: l) (by simpa using hbreak) rest
      simpa using this
  · exact ⟨w, linesOf_line_lf hbreak hcr rest⟩

/-- The header of a flushed file is two lines that are no key lines and two `#` lines. -/
theorem linesOf_deviceFile {devname : Text} (h : lineBreak ∉ devname) (pending : Text) : ∃ x,
    linesOf (deviceFile devname pending) =
      "Filetype: Bruce IR File".toList :: "Version: 1".toList :: ['#'] :: ('#' :: x) :: linesOf pending := by
  obtain ⟨x, hx⟩ := linesOf_terminator (w := ' ' :: devname) (by simpa [lineBreak] using h) pending
  refine ⟨x, ?_⟩
  have hfile : deviceFile devname pending =
      fileOf ['\n'] ["Filetype: Bruce IR File".toList, "Version: 1".toList, ['#']] ++
        ('#' :: ' ' :: devname ++ '\n' :: pending) := by
    simp [deviceFile_eq, fileOf]
  rw [hfile, linesOf_fileOf_append (.inl rfl) (by simp), hx]
  rfl

/-! ## The records of a flushed file (46_session.md R281, R283) -/

/-- The record a committed signal is read back as. -/
def signalRecord (hz : Nat) (path name : Text) (q : TimingSeq) : Command :=
  { blankCommand path with type := "raw".toList, data := render q, frequency := hz, name := trim name }

/-- The header emits no record. -/
theorem parse_deviceFile {devname : Text} (h : lineBreak ∉ devname) (pending path : Text) :
    parse (linesOf (deviceFile devname pending)) path = parse (linesOf pending) path := by
  obtain ⟨x, hlines⟩ := linesOf_deviceFile h pending
  have ignored {line : Text} (hline : ¬Terminator line) (hkey : ∀ k ∈ keyTable, ¬k.1 <+: line) :=
    parse_ignored path hline hkey []
  rw [hlines, ← List.nil_append (_ :: _), ignored (by simp [Terminator]) (by decide),
    ignored (by simp [Terminator]) (by decide), List.nil_append, parse_terminator, parse_terminator]

theorem parse_signalLines (hz : Nat) (path name : Text) (q : TimingSeq) (after : List Text) :
    parse (signalLines hz name (render q) ++ after) path = signalRecord hz path name q :: parse after path := by
  have hduty : ∀ k ∈ keyTable, ¬k.1 <+: "duty_cycle: 0.33".toList := by decide
  have hopen : ∀ l ∈ ["name: ".toList ++ name, "type: raw".toList, "frequency: ".toList ++ decimal hz,
      "duty_cycle: 0.33".toList, "data: ".toList ++ render q], ¬Terminator l := by simp [Terminator]
  have hkeys := parse_keyLines path (lines := [(("name:".toList, .name), ' ' :: name),
    (("type:".toList, .type), " raw".toList), (("frequency:".toList, .frequency), ' ' :: decimal hz),
    (("data:".toList, .data), ' ' :: render q)]) (by simp [keyTable]) [] _ rfl
  have hrecord : parse (["name: ".toList ++ name, "type: raw".toList, "frequency: ".toList ++ decimal hz] ++
      "duty_cycle: 0.33".toList :: ["data: ".toList ++ render q, ['#']]) path = [signalRecord hz path name q] := by
    refine ((parse_ignored path (hopen _ (by simp)) hduty _ _).trans hkeys).trans ?_
    have htype : trim " raw".toList = "raw".toList := by decide
    simp only [List.foldl_cons, List.foldl_nil, readKey, freshReader, setField, trim_cons_space, trim_decimal,
      trim_render, decimalValue_decimal, htype]
    rfl
  exact (parse_record path hopen [] after).trans (congrArg (· ++ parse after path) hrecord)

theorem parse_signals (hz : Nat) (path : Text) (signals : List (Text × TimingSeq)) :
    parse (signals.flatMap (fun g => signalLines hz g.1 (render g.2))) path =
      signals.map (fun g => signalRecord hz path g.1 g.2) := by
  induction signals with
  | nil => rfl
  | cons g signals ih => rw [List.flatMap_cons, parse_signalLines, ih, List.map_cons]

/-- What a flush that ends with `OK` has done: the file is stored, the faults and the arguments are as before. -/
theorem sesFlush_ok {s : State} {path devname : Text} (h : (sesFlush path devname s).code = .ok) :
    lineBreak ∉ devname ∧ ∃ ses, sesFlush path devname s =
      done { afterStore path (deviceFile devname s.ses.pending) s with ses := ses } ∧ (drawStore s).1 = true := by
  by_cases hrefused : s.ses.state ≠ .idle ∨ s.ses.count = 0 ∨ lineBreak ∈ devname
  · rw [sesFlush_of_refused hrefused] at h
    cases h
  · obtain ⟨hidle, hcount, hbreak⟩ : s.ses.state = .idle ∧ s.ses.count ≠ 0 ∧ lineBreak ∉ devname := by
      simpa only [not_or, not_not] using hrefused
    cases hstored : (drawStore s).1
    · rw [sesFlush_of_not_stored hidle hcount hbreak hstored] at h
      cases h
    · exact ⟨hbreak, _, sesFlush_of_stored hidle hcount hbreak hstored, rfl⟩

/-- Settles O55: the flushed file is the header and the signals' lines (`linesOf_deviceFile`, `flatMap_signalText`); the
header emits nothing (`parse_deviceFile`), each signal its record (`parse_signals`). -/
theorem flushedFileParsesBack : Obligations.FlushedFileParsesBack := by
  intro s t signals hfault hnames hpending hflush hok hopens
  rw [exec_sesFlush hfault] at hflush
  cases hflush
  obtain ⟨hbreak, ses, heq, hstored⟩ := sesFlush_ok hok
  rw [heq] at hopens ⊢
  obtain ⟨unknown, hread⟩ := Option.ne_none_iff_exists'.mp hopens
  refine ⟨_, exec_rplLoad hfault, ?_⟩
  rw [rplLoad_of_some hread]
  refine ⟨rfl, congrArg (List.take 100) ?_⟩
  have hlines : ∀ l ∈ signals.flatMap (fun g => signalLines s.params.rawDefaultFreq g.1 (render g.2)),
      '\n' ∉ l ∧ l.getLast? ≠ some '\r' := by
    intro l hl
    obtain ⟨g, hg, hl⟩ := List.mem_flatMap.mp hl
    obtain ⟨hlf, hcr⟩ := signalLines_plain (hnames g hg) g.2 l hl
    exact ⟨hlf, fun hlast => hcr (List.mem_of_getLast? hlast)⟩
  calc parse (linesOf (((storedFiles s.args.path (deviceFile s.args.devname s.ses.pending) s).lookup s.args.path).getD
          unknown)) s.args.path
      = parse (linesOf (deviceFile s.args.devname s.ses.pending)) s.args.path := by
        rw [lookup_storedFiles_self _ hstored, Option.getD_some]
    _ = parse (linesOf s.ses.pending) s.args.path := parse_deviceFile hbreak _ _
    _ = parse (signals.flatMap (fun g => signalLines s.params.rawDefaultFreq g.1 (render g.2))) s.args.path := by
        rw [hpending, flatMap_signalText, linesOf_fileOf (.inl rfl) hlines]
    _ = signals.map (fun g => signalRecord s.params.rawDefaultFreq s.args.path g.1 g.2) := parse_signals _ _ _

end Sys2Proof.Machine
end

section
/-! PROOFS. The recent buffer (O60), and what a command send leaves for its callers: its fault, the emitter, the draws
of others; with it RPL.SELECT (O57). -/

namespace Sys2Proof.Machine

/-! ## The recent buffer (46_session.md R280) -/

theorem exec_recInsert {s : State} (hfault : s.fault = false) :
    exec .recInsert s = .next { s with recents := recInsert s.cmd s.recents, result := .ok, value := .none } :=
  issue_of_usable (fun s => done { s with recents := recInsert s.cmd s.recents }) hfault

theorem recInsert_of_present {c : Command} {r : List Command} (h : ∃ e ∈ r, e.path = c.path) : recInsert c r = r := by
  rcases recInsert_cases c r with ⟨_, heq⟩ | ⟨habsent, _⟩
  · exact heq
  · obtain ⟨e, he, hpath⟩ := h
    exact absurd hpath (habsent e he)

theorem recInsert_of_absent {c : Command} {r : List Command} (h : ∀ e ∈ r, e.path ≠ c.path) :
    recInsert c r = (c :: r).take 16 := by
  rcases recInsert_cases c r with ⟨⟨e, he, hpath⟩, _⟩ | ⟨_, heq⟩
  · exact absurd hpath (h e he)
  · exact heq

/-- The newest 16 of what was inserted, newest first: one more command goes in front of them. -/
theorem foldl_recInsert {cs : List Command} (h : (cs.map (·.path)).Nodup) :
    cs.foldl (fun r c => recInsert c r) [] = cs.reverse.take 16 := by
  induction cs using List.reverseRecOn with
  | nil => rfl
  | append_singleton cs c ih =>
    rw [List.map_append, List.map_singleton, ← List.concat_eq_append, List.nodup_concat] at h
    obtain ⟨hnew, hcs⟩ := h
    have habsent : ∀ e ∈ cs.reverse.take 16, e.path ≠ c.path := fun e he hpath =>
      hnew (hpath ▸ List.mem_map_of_mem (List.mem_reverse.mp (List.mem_of_mem_take he)))
    rw [List.foldl_append, ih hcs, List.foldl_cons, List.foldl_nil, recInsert_of_absent habsent, List.reverse_append,
      List.reverse_singleton, List.singleton_append, List.take_succ_cons, List.take_take, List.take_succ_cons]
    rfl

/-- Settles O60: the two ways of REC.INSERT, and the fold of it. -/
theorem recentBufferKeepsNewestSixteen : Obligations.RecentBufferKeepsNewestSixteen := by
  refine ⟨fun s hfault => ⟨fun hpresent => ?present, fun habsent => ?absent⟩, fun cs => foldl_recInsert⟩
  case present => rw [exec_recInsert hfault, recInsert_of_present hpresent]
  case absent => rw [exec_recInsert hfault, recInsert_of_absent habsent]

/-! ## How a send ends (43_transmit.md R205, R206; 60_exceptions.md R306) -/

/-- The events of a trace that drive the pin low. -/
def lows (s : State) : Nat := s.tx.trace.count .pinLow

/-- How a send from `s` ends, which drives the pin low `n` times and, if `allocates`, has the channel allocated: by the
fault of a refused allocation, or without a fault. -/
inductive SendEnds (n : Nat) (allocates : Prop) (s : State) : Ended → Prop where
  | faulted {t : State} (hfault : t.fault = true) (hfresh : s.tx.alloc = false) (hrefused : (drawAlloc s).1 = false) :
      SendEnds n allocates s (raise .fHwAlloc t)
  | ended {code : ResultCode} {t : State} (hcode : resultKind code ≠ .fault) (hfault : t.fault = false)
      (halloc : s.tx.alloc = true ∨ allocates → t.tx.alloc = true) (hlows : lows t = lows s + n) :
      SendEnds n allocates s (raise code t)

namespace SendEnds

variable {n : Nat} {allocates : Prop} {s : State} {e : Ended}

theorem faulted_eq (h : SendEnds n allocates s e) : e.faulted = e.st.fault := by
  cases h with
  | faulted hfault => exact hfault.symm
  | ended hcode hfault => exact (decide_eq_false hcode).trans hfault.symm

theorem value_eq (h : SendEnds n allocates s e) : e.value = .none := by
  cases h <;> rfl

theorem code_of_faulted (h : SendEnds n allocates s e) (hset : e.st.fault = true) : e.code = .fHwAlloc := by
  cases h with
  | faulted => rfl
  | ended _ hfault => exact absurd (hset.symm.trans hfault) (by decide)

theorem fault_eq_false (h : SendEnds n allocates s e) (hgrant : s.tx.alloc = true ∨ (drawAlloc s).1 = true) :
    e.st.fault = false := by
  cases h with
  | faulted _ hfresh hrefused => simp [hfresh, hrefused] at hgrant
  | ended _ hfault => exact hfault

section
variable (h : SendEnds n allocates s e) (hkept : e.st.fault = false)
include h hkept

theorem alloc_of_kept (halloc : s.tx.alloc = true ∨ allocates) : e.st.tx.alloc = true := by
  cases h with
  | faulted hset => exact absurd (hset.symm.trans hkept) (by decide)
  | ended _ _ hstays => exact hstays halloc

theorem lows_of_kept : lows e.st = lows s + n := by
  cases h with
  | faulted hset => exact absurd (hset.symm.trans hkept) (by decide)
  | ended _ _ _ hlows => exact hlows

end

/-- An end from `s` is one from `s'`, if `s'` is not behind `s` in the allocation and has as many lows. -/
theorem of_state {asked : Prop} {s' : State} (h : SendEnds n allocates s e)
    (hfresh : s.tx.alloc = false → (drawAlloc s).1 = false → s'.tx.alloc = false ∧ (drawAlloc s').1 = false)
    (halloc : s'.tx.alloc = true ∨ asked → s.tx.alloc = true ∨ allocates) (hlows : lows s = lows s') :
    SendEnds n asked s' e := by
  cases h with
  | faulted hset hnot hrefused => exact .faulted hset (hfresh hnot hrefused).1 (hfresh hnot hrefused).2
  | ended hcode hfault hkept hlow => exact .ended hcode hfault (fun h => hkept (halloc h)) (hlow.trans (by rw [hlows]))

end SendEnds

/-- A failed encoder answers a failure, not a fault (42_encoder_protocols.md R182). -/
def FailsOnly (r : Except ResultCode TimingSeq) : Prop := ∀ c, r = .error c → resultKind c ≠ .fault

theorem failsOnly_ite {p : Prop} [Decidable p] {a b : Except ResultCode TimingSeq} (ha : FailsOnly a)
    (hb : FailsOnly b) : FailsOnly (if p then a else b) := by
  split
  · exact ha
  · exact hb

theorem failsOnly_notSupported : FailsOnly (.error .eNotSupported) := by
  rintro _ ⟨⟩
  decide

theorem failsOnly_fromText (t : Text) : FailsOnly (fromText t) := by
  cases h : durations t with
  | none =>
    rw [fromText_of_malformed h]
    rintro _ ⟨⟩
    decide
  | some v =>
    rw [fromText_of_durations h]
    nofun

theorem failsOnly_encodeWith {p : Params} {name : Text} {addr cmd : Option Nat}
    {frame : ProtocolSpec → Nat → Nat → TimingSeq} : FailsOnly (encodeWith p name addr cmd frame) := by
  rcases encodeWith_cases p name addr cmd frame with ⟨_, h⟩ | ⟨_, _, _, _, _, _, h⟩ | ⟨_, h⟩ <;> rw [h] <;> rintro _ ⟨⟩
  · decide
  · decide

theorem failsOnly_encAuto (p : Params) (x : Command) : FailsOnly (encAuto p x) :=
  failsOnly_ite (failsOnly_fromText _) <| failsOnly_ite failsOnly_notSupported <|
  failsOnly_ite failsOnly_notSupported <|
  failsOnly_ite failsOnly_encodeWith <| failsOnly_ite failsOnly_encodeWith <|
  failsOnly_ite failsOnly_encodeWith <| failsOnly_ite failsOnly_encodeWith <|
  failsOnly_ite failsOnly_encodeWith <| failsOnly_ite failsOnly_encodeWith <|
  failsOnly_ite failsOnly_encodeWith <| failsOnly_ite failsOnly_encodeWith <|
  failsOnly_ite failsOnly_encodeWith failsOnly_notSupported

theorem lows_txReady (c : TxConfig) (s : State) : lows (txReady c s) = lows s := by
  have hdrained : (if s.tx.busy then [TxEvent.frame (pairsOf s.tx.buf)] else []).count .pinLow = 0 := by split <;> rfl
  have hconfigured : (if s.tx.cfg = some c then [] else [TxEvent.config c]).count .pinLow = 0 := by split <;> rfl
  simp only [lows, txReady, traceBefore, List.count_append, hdrained, hconfigured, Nat.add_zero]

theorem lows_txComplete (s : State) : lows (txComplete s) = lows s := by
  rw [lows, txComplete_tx_trace, List.count_append]
  rfl

/-- The wait on an allocated channel ends without a fault (R201, R207). -/
theorem txRequest_ends {s : State} (hfault : s.fault = false) (halloc : s.tx.alloc = true) (syms : List Symbol) :
    SendEnds 0 True s (txRequest syms s) := by
  obtain ⟨s1, rfl, ⟨_, h⟩ | ⟨_, _, h⟩ | ⟨_, _, n, rfl, h⟩⟩ := txRequest_cases syms s <;> rw [h]
  · exact .ended (code := .ok) (by decide) hfault (fun _ => (txComplete_tx_alloc _).trans halloc) (lows_txComplete _)
  · exact .ended (code := .ok) (by decide) hfault (fun _ => (txComplete_tx_alloc _).trans halloc) (lows_txComplete _)
  · exact .ended (by decide) hfault (fun _ => (playPairs_alloc _ _).trans halloc)
      (congrArg (List.count TxEvent.pinLow) (playPairs_trace _ _))

/-- A send of a nonempty sequence: the refused allocation, or an allocated channel (R200, R201, R306). -/
theorem txSend_ends {s : State} {q : List Nat} (hfault : s.fault = false) (hq : q ≠ []) (c : TxConfig) :
    SendEnds 0 True s (txSend q c s) := by
  by_cases hgrant : s.tx.alloc = true ∨ (drawAlloc s).1 = true
  · rw [txSend_eq_request hgrant hq]
    exact (txRequest_ends (s := txReady c s) hfault rfl _).of_state nofun (fun _ => .inl rfl) (lows_txReady c s)
  · simp only [not_or, Bool.not_eq_true] at hgrant
    obtain ⟨hfresh, hrefused⟩ := hgrant
    have hdrained : (txDrain s).tx.alloc = false := by rw [txDrain_eq]; exact hfresh
    have hdraw : (drawAlloc (txDrain s)).1 = false := by rw [txDrain_eq]; exact hrefused
    have hensure := txEnsure_of_refused hdrained hdraw c
    rcases txSend_cases q c s with ⟨hnil, _⟩ | ⟨_, _, heq⟩ | ⟨_, hok, _⟩
    · exact absurd hnil hq
    · rw [heq, hensure]
      exact .faulted rfl hfresh hrefused
    · rw [hensure] at hok
      cases hok

/-- The end of a command send drives the pin low once and touches neither the allocation nor the fault (R206). -/
theorem emitterOff_ends (s : State) :
    (emitterOff s).fault = s.fault ∧ (emitterOff s).tx.alloc = s.tx.alloc ∧ lows (emitterOff s) = lows s + 1 := by
  have hlow (t : State) : lows (driveLow t) = lows t + 1 := List.count_append
  rw [emitterOff, hlow]
  rcases txMayComplete_cases s with ⟨_, h⟩ | ⟨_, _, h⟩ | ⟨_, _, h⟩ <;> rw [h]
  · exact ⟨rfl, rfl, rfl⟩
  · exact ⟨rfl, txComplete_tx_alloc _, congrArg (· + 1) (lows_txComplete _)⟩
  · exact ⟨rfl, rfl, rfl⟩

theorem emitterOff_sendEnds {allocates : Prop} {s : State} {code : ResultCode} (hfault : s.fault = false)
    (hcode : resultKind code ≠ .fault) (hnot : ¬allocates) : SendEnds 1 allocates s (raise code (emitterOff s)) := by
  obtain ⟨hkept, halloc, hlows⟩ := emitterOff_ends s
  exact .ended hcode (hkept.trans hfault) (fun h => halloc.trans (h.resolve_right hnot)) hlows

/-- The repeat loop ends as its first invocation, the only one that may allocate, and then drives the pin low (R205). -/
theorem sendLoop_ends {q : List Nat} (hq : q ≠ []) (c : TxConfig) (n : Nat) {first : Option ResultCode} {s : State}
    (hfault : s.fault = false) (hfirst : ∀ code ∈ first, resultKind code ≠ .fault) :
    SendEnds 1 (0 < n) s (sendLoop q c n first s) := by
  induction n generalizing first s with
  | zero =>
    rw [sendLoop_zero]
    refine emitterOff_sendEnds hfault ?_ (Nat.lt_irrefl 0)
    cases first with
    | none => decide
    | some code => exact hfirst code rfl
  | succ n ih =>
    have hsend := txSend_ends hfault hq c
    rw [sendLoop]
    generalize txSend q c s = e at hsend ⊢
    cases hsend with
    | faulted hset hfresh hrefused => exact .faulted hset hfresh hrefused
    | @ended code t hcode hkept halloc hlows =>
      have hnot : (raise code t).faulted = false := decide_eq_false hcode
      simp only [hnot, Bool.false_eq_true, if_false, raise_code, raise_st]
      have hset : t.tx.alloc = true := halloc (.inr trivial)
      refine (ih hkept ?_).of_state (fun hfresh => absurd hset (by simp [hfresh])) (fun _ => .inl hset) hlows
      split
      · rintro _ ⟨⟩
        exact hcode
      · exact hfirst

/-- TX.SENDCMD ends by the fault of a refused allocation, or without a fault and with the pin driven low once; encoding
a nonempty sequence, it has the channel allocated (R205, R206, R306). -/
theorem txSendcmd_ends {s : State} (hfault : s.fault = false) :
    SendEnds 1 (∃ q, encAuto s.params s.cmd = .ok q ∧ q ≠ []) s (txSendcmd s) := by
  cases henc : encAuto s.params s.cmd with
  | error code =>
    rw [txSendcmd_of_error henc]
    exact emitterOff_sendEnds hfault (failsOnly_encAuto _ _ code henc) (by simp)
  | ok q =>
    rw [txSendcmd_of_ok henc]
    by_cases hq : q = []
    · subst hq
      rw [sendLoop_nil]
      exact (emitterOff_sendEnds (allocates := False) (s := { s with seq := [] }) hfault (by decide) id).of_state
        .intro (fun h => .inl (h.resolve_right (by simp))) rfl
    · exact (sendLoop_ends (s := { s with seq := q }) hq _ _ hfault (by simp)).of_state .intro
        (fun _ => .inr (Nat.succ_pos _)) rfl

/-! ## RPL.SELECT (46_session.md R277) -/

section
variable {s : State}

theorem exec_rplSelect (hfault : s.fault = false) : exec .rplSelect s = .next (finish (rplSelect s.args.index s)) :=
  issue_of_usable (fun s => rplSelect s.args.index s) hfault

theorem rplSelect_of_none {i : Nat} (h : s.cat[i]? = none) : rplSelect i s = raise .eBadState s := by
  simp only [rplSelect, h]

/-- The selected command is sent, and enters the recent buffer unless the send has faulted. -/
theorem rplSelect_of_some {i : Nat} {c : Command} (hfault : s.fault = false) (h : s.cat[i]? = some c) :
    ∃ e, txSendcmd { s with cmd := c } = e ∧ e.st.recents = s.recents ∧ rplSelect i s =
      { e with st := { e.st with
          recents := if e.st.fault = true then e.st.recents else recInsert c e.st.recents } } := by
  refine ⟨_, rfl, by rw [txSendcmd_frame], ?_⟩
  have hfaulted := (txSendcmd_ends (s := { s with cmd := c }) hfault).faulted_eq
  simp only [rplSelect, h]
  generalize txSendcmd { s with cmd := c } = e at hfaulted ⊢
  rw [hfaulted]
  by_cases hset : e.st.fault = true
  · rw [if_pos hset, if_pos hset]
  · rw [if_neg hset, if_neg hset]

end

/-- What the statement says of the recent buffer after a selection. -/
theorem recents_of_selected (c : Command) (faulted : Bool) (r : List Command) :
    (if faulted = true then r else recInsert c r) =
      if faulted = true ∨ ∃ e ∈ r, e.path = c.path then r else (c :: r).take 16 := by
  cases faulted
  · rcases recInsert_cases c r with ⟨hpresent, heq⟩ | ⟨habsent, heq⟩
    · simp [heq, hpresent]
    · have hnot : ¬∃ e ∈ r, e.path = c.path := fun ⟨e, he, hpath⟩ => habsent e he hpath
      simp [heq, hnot, Config.recentCap]
  · simp

/-- Settles O57: a selection is the command send (`rplSelect_of_some`) and the insertion (`recents_of_selected`). -/
theorem selectSendsAndRemembers : Obligations.SelectSendsAndRemembers := by
  intro s hfault
  rw [exec_rplSelect hfault]
  refine ⟨fun hbeyond => ?beyond, fun c hc => ⟨_, exec_txSendcmd (s := { s with cmd := c }) hfault, ?sent⟩⟩
  case beyond =>
    rw [rplSelect_of_none (List.getElem?_eq_none hbeyond)]
    rfl
  case sent =>
    obtain ⟨e, he, hrecents, heq⟩ := rplSelect_of_some hfault hc
    rw [heq, he, hrecents, recents_of_selected]
    rfl

end Sys2Proof.Machine
end

section
/-! PROOFS. RPL.SPAMALL: the replay with the operator quiet (O58), and what a sample at a record boundary does (O59). -/

namespace Sys2Proof.Machine

/-! ## What a send does not read: the result, the value and the boundary answers (log 3, log 4) -/

/-- The state with `RESULT`, the value port and the boundary answers replaced. -/
def State.withUnread (r : ResultCode) (v : Value) (b : List (List InputFlags)) (s : State) : State :=
  { s with result := r, value := v, env := { s.env with boundaries := b } }

section
variable (r : ResultCode) (v : Value) (b : List (List InputFlags))

theorem txConfigure_withUnread (c : TxConfig) (s : State) :
    txConfigure c (s.withUnread r v b) = (txConfigure c s).withUnread r v b :=
  ite_commutes (State.withUnread r v b) rfl rfl

theorem txDrain_withUnread (s : State) : txDrain (s.withUnread r v b) = (txDrain s).withUnread r v b :=
  ite_commutes (State.withUnread r v b) rfl rfl

theorem txMayComplete_withUnread (s : State) :
    txMayComplete (s.withUnread r v b) = (txMayComplete s).withUnread r v b :=
  ite_commutes (State.withUnread r v b) (ite_commutes (State.withUnread r v b) rfl rfl) rfl

theorem emitterOff_withUnread (s : State) : emitterOff (s.withUnread r v b) = (emitterOff s).withUnread r v b :=
  congrArg driveLow (txMayComplete_withUnread r v b s)

theorem txEnsure_withUnread (c : TxConfig) (s : State) :
    txEnsure c (s.withUnread r v b) = (txEnsure c s).map (State.withUnread r v b) :=
  have allocated := txConfigure_withUnread r v b c { (drawAlloc s).2 with tx := { s.tx with alloc := true } }
  ite_commutes (Ended.map (State.withUnread r v b)) (congrArg done (txConfigure_withUnread r v b c s))
    (ite_commutes (Ended.map (State.withUnread r v b)) (congrArg done allocated) rfl)

theorem txRequest_withUnread (syms : List Symbol) (s : State) :
    txRequest syms (s.withUnread r v b) = (txRequest syms s).map (State.withUnread r v b) := by
  have hwait : (s.withUnread r v b).maxWait = s.maxWait := rfl
  simp only [txRequest, hwait]
  cases s.maxWait with
  | none => rfl
  | some m => exact ite_commutes (Ended.map (State.withUnread r v b)) rfl rfl

theorem txSend_withUnread (q : List Nat) (c : TxConfig) (s : State) :
    txSend q c (s.withUnread r v b) = (txSend q c s).map (State.withUnread r v b) := by
  cases q with
  | nil => rfl
  | cons d rest =>
    simp only [txSend, txDrain_withUnread, txEnsure_withUnread, map_faulted]
    exact ite_commutes (Ended.map (State.withUnread r v b)) rfl (txRequest_withUnread r v b _ _)

theorem sendLoop_withUnread (q : List Nat) (c : TxConfig) (n : Nat) (first : Option ResultCode) (s : State) :
    sendLoop q c n first (s.withUnread r v b) = (sendLoop q c n first s).map (State.withUnread r v b) := by
  induction n generalizing first s with
  | zero => rw [sendLoop_zero, sendLoop_zero, emitterOff_withUnread, raise_map]
  | succ n ih =>
    simp only [sendLoop, txSend_withUnread, map_faulted, map_failed]
    exact ite_commutes (Ended.map (State.withUnread r v b)) rfl (ih _ _)

theorem txSendcmd_withUnread (s : State) :
    txSendcmd (s.withUnread r v b) = (txSendcmd s).map (State.withUnread r v b) := by
  have hparams : (s.withUnread r v b).params = s.params := rfl
  have hcmd : (s.withUnread r v b).cmd = s.cmd := rfl
  cases henc : encAuto s.params s.cmd with
  | error code =>
    rw [txSendcmd_of_error henc, txSendcmd_of_error (by rw [hparams, hcmd, henc]), emitterOff_withUnread, raise_map]
  | ok q =>
    rw [txSendcmd_of_ok henc, txSendcmd_of_ok (by rw [hparams, hcmd, henc])]
    exact sendLoop_withUnread r v b q _ _ none { s with seq := q }

end

/-! ## One record (46_session.md R278) -/

/-- A record sent: the registers loaded, one boundary answer used up, TX.SENDCMD. -/
def sendRecord (c : Command) (s : State) : Ended :=
  txSendcmd { s with cmd := c, env := { s.env with boundaries := s.env.boundaries.tail } }

/-- `rec_idx` advanced. -/
def nextRecord (s : State) : State := { s with recIdx := s.recIdx + 1 }

/-- The replay after a record sent without a fault. -/
def afterRecord (c : Command) (s : State) : State := nextRecord (finish (sendRecord c s))

/-- The state with the boundary answers replaced. -/
def State.withBoundaries (b : List (List InputFlags)) (s : State) : State :=
  { s with env := { s.env with boundaries := b } }

section
variable (c : Command) (s : State)

theorem sendRecord_withUnread (r : ResultCode) (v : Value) (b : List (List InputFlags)) :
    sendRecord c (s.withUnread r v b) = (sendRecord c s).map (State.withUnread r v b.tail) :=
  txSendcmd_withUnread r v b.tail { s with cmd := c, env := { s.env with boundaries := s.env.boundaries.tail } }

theorem sendRecord_frame : (sendRecord c s).st = { s with
    cmd := c
    seq := (sendRecord c s).st.seq
    tx := (sendRecord c s).st.tx
    env := (sendRecord c s).st.env
    fault := (sendRecord c s).st.fault } :=
  txSendcmd_frame _

/-- A send uses up the one boundary answer, no more. -/
theorem sendRecord_boundaries : (sendRecord c s).st.env.boundaries = s.env.boundaries.tail :=
  congrArg (fun e : Ended => e.st.env.boundaries) (sendRecord_withUnread c s s.result s.value s.env.boundaries)

theorem sendRecord_ends (hfault : s.fault = false) :
    SendEnds 1 (∃ q, encAuto s.params c = .ok q ∧ q ≠ []) s (sendRecord c s) :=
  (txSendcmd_ends (s := { s with cmd := c, env := { s.env with boundaries := s.env.boundaries.tail } })
    hfault).of_state .intro id rfl

end

/-- The replay of a record more: its send, and the rest unless it has faulted. -/
theorem replayAll_cons {s : State} (hfault : s.fault = false) (c : Command) (rest : List Command) :
    replayAll (c :: rest) s =
      if (sendRecord c s).st.fault = true then finish (sendRecord c s)
      else replayAll rest (afterRecord c s) := by
  rw [replayAll, exec_txSendcmd (by exact hfault)]
  rfl

/-! ## The replay as a whole -/

/-- The replay changes the operand registers, `SEQ`, `rec_idx`, the results, the transmit side, the draws and the fault
flag, nothing else (R278). -/
theorem replayAll_frame (recs : List Command) {s : State} (hfault : s.fault = false) : replayAll recs s = { s with
    cmd := (replayAll recs s).cmd
    seq := (replayAll recs s).seq
    recIdx := (replayAll recs s).recIdx
    result := (replayAll recs s).result
    fault := (replayAll recs s).fault
    tx := (replayAll recs s).tx
    value := (replayAll recs s).value
    env := (replayAll recs s).env } := by
  induction recs generalizing s with
  | nil => rfl
  | cons c rest ih =>
    have hframe := sendRecord_frame c s
    rw [replayAll_cons hfault, afterRecord]
    generalize sendRecord c s = e at hframe ⊢
    split
    · rw [finish, hframe]
    · next hkept =>
      rw [ih (s := nextRecord (finish e)) (Bool.eq_false_iff.mpr hkept), nextRecord, finish, hframe]

/-- In a replay without a fault the first record has been sent, and the rest after it. -/
theorem replayAll_cons_of_kept {s : State} {c : Command} {rest : List Command} (hfault : s.fault = false)
    (hkept : (replayAll (c :: rest) s).fault = false) :
    (afterRecord c s).fault = false ∧ replayAll (c :: rest) s = replayAll rest (afterRecord c s) := by
  rw [replayAll_cons hfault] at hkept ⊢
  by_cases hset : (sendRecord c s).st.fault = true
  · rw [if_pos hset] at hkept
    exact absurd (hset.symm.trans hkept) (by decide)
  · exact ⟨Bool.eq_false_iff.mpr hset, if_neg hset⟩

/-- An allocated channel has no fault to meet (R200). -/
theorem replayAll_fault_of_alloc (recs : List Command) {s : State} (hfault : s.fault = false)
    (halloc : s.tx.alloc = true) : (replayAll recs s).fault = false := by
  induction recs generalizing s with
  | nil => exact hfault
  | cons c rest ih =>
    have hends := sendRecord_ends c s hfault
    have hkept := hends.fault_eq_false (.inl halloc)
    rw [replayAll_cons hfault, if_neg (by simp [hkept])]
    exact ih hkept (hends.alloc_of_kept hkept (.inl halloc))

/-- Every record sent advances `rec_idx` and drives the pin low once. -/
theorem replayAll_counts (recs : List Command) {s : State} (hfault : s.fault = false)
    (hkept : (replayAll recs s).fault = false) :
    (replayAll recs s).recIdx = s.recIdx + recs.length ∧ lows (replayAll recs s) = lows s + recs.length := by
  induction recs generalizing s with
  | nil => exact ⟨rfl, rfl⟩
  | cons c rest ih =>
    obtain ⟨hsent, heq⟩ := replayAll_cons_of_kept hfault hkept
    rw [heq] at hkept ⊢
    obtain ⟨hidx, hcount⟩ := ih hsent hkept
    have hlows : lows (afterRecord c s) = lows s + 1 := (sendRecord_ends c s hfault).lows_of_kept hsent
    have hnext : (afterRecord c s).recIdx = s.recIdx + 1 := congrArg (·.recIdx + 1) (sendRecord_frame c s)
    rw [hidx, hcount, hlows, hnext, List.length_cons]
    omega

/-- The registers hold the last record. -/
theorem replayAll_cmd (recs : List Command) {s : State} (hfault : s.fault = false)
    (hkept : (replayAll recs s).fault = false) : ∀ last ∈ recs.getLast?, (replayAll recs s).cmd = last := by
  induction recs generalizing s with
  | nil => nofun
  | cons c rest ih =>
    obtain ⟨hsent, heq⟩ := replayAll_cons_of_kept hfault hkept
    rw [heq] at hkept ⊢
    cases rest with
    | nil =>
      rintro last ⟨⟩
      exact congrArg State.cmd (sendRecord_frame c s)
    | cons d rest =>
      rw [List.getLast?_cons_cons]
      exact ih hsent hkept

/-- The replay does not look at the boundary answers; it uses up one a record. -/
theorem replayAll_withBoundaries (recs : List Command) {s : State} (hfault : s.fault = false)
    (hkept : (replayAll recs s).fault = false) (b : List (List InputFlags)) :
    replayAll recs (s.withBoundaries b) = (replayAll recs s).withBoundaries (b.drop recs.length) := by
  induction recs generalizing s b with
  | nil => rfl
  | cons c rest ih =>
    have hsend : sendRecord c (s.withBoundaries b) =
        (sendRecord c s).map (State.withUnread s.result s.value b.tail) :=
      sendRecord_withUnread c s s.result s.value b
    obtain ⟨hsent, heq⟩ := replayAll_cons_of_kept hfault hkept
    rw [heq] at hkept
    have hnot : (sendRecord c (s.withBoundaries b)).st.fault ≠ true := hsend ▸ ne_true_of_eq_false hsent
    have hafter : afterRecord c (s.withBoundaries b) = (afterRecord c s).withBoundaries b.tail :=
      congrArg (nextRecord ∘ finish) hsend
    rw [heq, replayAll_cons (s := s.withBoundaries b) hfault, if_neg hnot, hafter, ih hsent hkept, List.length_cons,
      List.drop_tail]

theorem replayAll_boundaries (recs : List Command) {s : State} (hfault : s.fault = false)
    (hkept : (replayAll recs s).fault = false) :
    (replayAll recs s).env.boundaries = s.env.boundaries.drop recs.length :=
  congrArg (fun s : State => s.env.boundaries) (replayAll_withBoundaries recs hfault hkept s.env.boundaries)

/-! ## Record boundaries (46_session.md R279, 60_exceptions.md R313) -/

/-- No cancel and no pause waits, and the replay is not paused. -/
structure Quiet (s : State) : Prop where
  select : s.flags.select = false
  escape : s.flags.escape = false
  paused : s.paused = false

theorem Quiet.of_eq {s t : State} (h : Quiet s) (hflags : t.flags = s.flags) (hpaused : t.paused = s.paused) :
    Quiet t :=
  ⟨hflags ▸ h.select, hflags ▸ h.escape, hpaused ▸ h.paused⟩

theorem clearFlag_of_low {n : InputName} {f : InputFlags} (h : readFlag n f = false) : clearFlag n f = f := by
  cases n <;> rw [clearFlag, ← h] <;> rfl

/-- With no sample a quiet boundary goes on and changes nothing. -/
theorem boundary_of_no_sample {s : State} (hquiet : Quiet s) : boundary [] s = .go s := by
  obtain ⟨hselect, hescape, hpaused⟩ := hquiet
  have hesc : clearFlag .escape s.flags = s.flags := clearFlag_of_low hescape
  have hsel : clearFlag .select s.flags = s.flags := clearFlag_of_low hselect
  simp only [boundary, readAndClear, hesc, hsel, readFlag, hescape, hselect, hpaused, Bool.xor_false,
    Bool.false_eq_true, if_false]
  rw [← hpaused]

/-- A cancel is taken at once, paused or not. -/
theorem boundary_of_cancel {f : InputFlags} (h : f.escape = true) (rest : List InputFlags) (s : State) :
    ∃ t, boundary (f :: rest) s = .cancelled t := by
  cases rest <;> exact ⟨_, if_pos (by simp [readAndClear, readFlag, setFlags, h])⟩

/-- Paused by a sample: its flags are set, the two that are read are cleared. -/
def pausedBy (f : InputFlags) (s : State) : State :=
  { s with flags := clearFlag .select (clearFlag .escape (setFlags s.flags f)), paused := true }

section
variable {s : State} {f : InputFlags} (hquiet : Quiet s) (hselect : f.select = true) (hescape : f.escape = false)
include hquiet hselect hescape

/-- A pause with a further sample: the loop takes another turn. -/
theorem boundary_of_pause (g : InputFlags) (rest : List InputFlags) :
    boundary (f :: g :: rest) s = boundary (g :: rest) (pausedBy f s) := by
  rw [boundary]
  simp [readAndClear, readFlag, clearFlag, setFlags, hselect, hescape, hquiet.escape, hquiet.paused, pausedBy]

/-- A pause with no further sample does not end. -/
theorem boundary_of_endless_pause : boundary [f] s = .stuck := by
  rw [boundary]
  simp [readAndClear, readFlag, clearFlag, setFlags, hselect, hescape, hquiet.escape, hquiet.paused]

end

/-- A pause that is resumed leaves nothing behind. -/
theorem boundary_of_resume {s : State} (hquiet : Quiet s) {f : InputFlags}
    (hf : f = { next := false, previous := false, select := true, escape := false }) : boundary [f, f] s = .go s := by
  subst hf
  obtain ⟨hselect, hescape, hpaused⟩ := hquiet
  have hflags : InputFlags.mk s.flags.next s.flags.previous false false = s.flags :=
    congrArg₂ (InputFlags.mk s.flags.next s.flags.previous) hselect.symm hescape.symm
  have hunpaused : { s with paused := false } = s := by rw [← hpaused]
  rw [boundary_of_pause ⟨hselect, hescape, hpaused⟩ rfl rfl, boundary]
  simp [readAndClear, readFlag, clearFlag, setFlags, pausedBy, hescape, hflags, hunpaused]

/-! ## The record loop (46_session.md R278) -/

section
variable {s t : State} {samples : List InputFlags} {more : List (List InputFlags)}

theorem drawBoundary_of_cons (h : s.env.boundaries = samples :: more) :
    drawBoundary s = (samples, s.withBoundaries more) := by
  rw [drawBoundary, h, nextAnswer_cons]
  rfl

section
variable (hdraw : s.env.boundaries = samples :: more) (c : Command) (rest : List Command)
include hdraw

theorem spamLoop_of_go (h : boundary samples (s.withBoundaries more) = .go t) : spamLoop (c :: rest) s =
    if (txSendcmd { t with cmd := c }).faulted = true then some (txSendcmd { t with cmd := c })
    else spamLoop rest (nextRecord (txSendcmd { t with cmd := c }).st) := by
  simp only [spamLoop, drawBoundary_of_cons hdraw, h]
  rfl

theorem spamLoop_of_cancelled (h : boundary samples (s.withBoundaries more) = .cancelled t) :
    spamLoop (c :: rest) s = some (raise .eCancelled t) := by
  simp only [spamLoop, drawBoundary_of_cons hdraw, h]

theorem spamLoop_of_stuck (h : boundary samples (s.withBoundaries more) = .stuck) : spamLoop (c :: rest) s = none := by
  simp only [spamLoop, drawBoundary_of_cons hdraw, h]

end

/-- A quiet boundary is followed by the record's send. -/
theorem spamLoop_of_quiet (hdraw : s.env.boundaries = [] :: more) (hquiet : Quiet s) (c : Command)
    (rest : List Command) : spamLoop (c :: rest) s =
      if (sendRecord c s).faulted = true then some (sendRecord c s)
      else spamLoop rest (nextRecord (sendRecord c s).st) := by
  have hrecord : txSendcmd { s.withBoundaries more with cmd := c } = sendRecord c s := by
    rw [sendRecord, hdraw]
    rfl
  rw [spamLoop_of_go hdraw c rest (boundary_of_no_sample (s := s.withBoundaries more) { hquiet with }), hrecord]

end

/-- The state with `RESULT` and the value port replaced. -/
def State.withReport (r : ResultCode) (v : Value) (s : State) : State := { s with result := r, value := v }

theorem sendRecord_withReport (c : Command) (s : State) (r : ResultCode) (v : Value) :
    sendRecord c (s.withReport r v) = (sendRecord c s).map (State.withReport r v) := by
  refine (sendRecord_withUnread c s r v s.env.boundaries).trans ?_
  rw [← sendRecord_boundaries]
  rfl

theorem afterRecord_quiet {s : State} (hquiet : Quiet s) (c : Command) : Quiet (afterRecord c s) := by
  have hflags : (sendRecord c s).st.flags = s.flags := by rw [sendRecord_frame]
  have hpaused : (sendRecord c s).st.paused = s.paused := by rw [sendRecord_frame]
  exact hquiet.of_eq hflags hpaused

/-- The loop over records with quiet boundaries is their replay, up to `RESULT` and the value port, which the loop
leaves to its end; a fault ends it. -/
theorem spamLoop_append (first rest : List Command) {s : State} {more : List (List InputFlags)}
    (hfault : s.fault = false) (hquiet : Quiet s)
    (hdraws : s.env.boundaries = List.replicate first.length [] ++ more) (r : ResultCode) (v : Value) :
    spamLoop (first ++ rest) (s.withReport r v) =
      if (replayAll first s).fault = true then some (raise .fHwAlloc ((replayAll first s).withReport r v))
      else spamLoop rest ((replayAll first s).withReport r v) := by
  induction first generalizing s with
  | nil => exact (if_neg (ne_true_of_eq_false hfault)).symm
  | cons c first ih =>
    have hends := sendRecord_ends c s hfault
    rw [List.cons_append, spamLoop_of_quiet (s := s.withReport r v) hdraws { hquiet with }, sendRecord_withReport,
      map_faulted, hends.faulted_eq, replayAll_cons hfault]
    by_cases hset : (sendRecord c s).st.fault = true
    · have hraised : sendRecord c s = raise .fHwAlloc (sendRecord c s).st := by
        rw [raise, ← hends.code_of_faulted hset, ← hends.value_eq]
      rw [if_pos hset, if_pos hset, finish_fault, if_pos hset]
      conv_lhs => rw [hraised]
      rfl
    · rw [if_neg hset, if_neg hset]
      refine ih (s := afterRecord c s) (Bool.eq_false_iff.mpr hset) (afterRecord_quiet hquiet c) ?_
      exact (sendRecord_boundaries c s).trans (by rw [hdraws]; rfl)

/-! ## RPL.SPAMALL (46_session.md R278) -/

section
variable {s : State}

theorem rplSpamall_of_none (h : (drawRead s).1 = none) (path : Text) :
    rplSpamall path s = some (raise .eStorage (drawRead s).2) := by
  simp only [rplSpamall, readLines_of_none h]

theorem rplSpamall_of_some {unknown : Text} (h : (drawRead s).1 = some unknown) (path : Text) : rplSpamall path s =
    spamLoop (parse (linesOf ((s.storage.lookup path).getD unknown)) path) (replayStart s) := by
  simp only [rplSpamall, readLines_of_some h]
  rfl

section
variable (hfault : s.fault = false)
include hfault

theorem exec_rplSpamall_of_some {e : Ended} (h : rplSpamall s.args.path s = some e) :
    exec .rplSpamall s = .next (finish e) := by
  simp only [exec, execRplSpamall, hfault, h, Bool.false_eq_true, if_false]

theorem exec_rplSpamall_of_none (h : rplSpamall s.args.path s = none) : exec .rplSpamall s = .fault .pausedForever := by
  simp only [exec, execRplSpamall, hfault, h, Bool.false_eq_true, if_false]

theorem exec_rplSpamall_congr {t : State} (hfault' : t.fault = false)
    (h : rplSpamall s.args.path s = rplSpamall t.args.path t) : exec .rplSpamall s = exec .rplSpamall t := by
  simp only [exec, execRplSpamall, hfault, hfault', h, Bool.false_eq_true, if_false]

end

end

/-! ## The first record on a channel that is not allocated (43_transmit.md R200, 60_exceptions.md R306) -/

/-- A refused allocation ends a command send at its first invocation. -/
theorem txSendcmd_of_refused {s : State} {q : TimingSeq} (henc : encAuto s.params s.cmd = .ok q) (hq : q ≠ [])
    (hfresh : s.tx.alloc = false) (hbusy : s.tx.busy = false) (hrefused : (drawAlloc s).1 = false) :
    txSendcmd s = enterFault { (drawAlloc s).2 with seq := q } := by
  have hdrain : txDrain { s with seq := q } = { s with seq := q } := if_neg (ne_true_of_eq_false hbusy)
  have hensure (c : TxConfig) : txEnsure c { s with seq := q } = enterFault { (drawAlloc s).2 with seq := q } :=
    txEnsure_of_refused (s := { s with seq := q }) hfresh hrefused c
  have hsend (c : TxConfig) : txSend q c { s with seq := q } = enterFault { (drawAlloc s).2 with seq := q } := by
    rcases txSend_cases q c { s with seq := q } with ⟨hnil, _⟩ | ⟨_, _, heq⟩ | ⟨_, hok, _⟩
    · exact absurd hnil hq
    · rw [heq, hdrain, hensure]
    · rw [hdrain, hensure] at hok
      cases hok
  rw [txSendcmd_of_ok henc, sendLoop_succ_of_faulted (by rw [hsend]; rfl), hsend]

section
variable {s : State} {c : Command} {q : TimingSeq} (rest : List Command) (hfault : s.fault = false)
  (henc : encAuto s.params c = .ok q) (hq : q ≠ [])
include hfault henc hq

theorem replayAll_of_refused (hfresh : s.tx.alloc = false) (hbusy : s.tx.busy = false)
    (hrefused : (drawAlloc s).1 = false) : (replayAll (c :: rest) s).fault = true ∧
      (replayAll (c :: rest) s).recIdx = s.recIdx ∧ (replayAll (c :: rest) s).tx = s.tx := by
  have hsend := txSendcmd_of_refused
    (s := { s with cmd := c, env := { s.env with boundaries := s.env.boundaries.tail } }) henc hq hfresh hbusy hrefused
  rw [replayAll_cons hfault, sendRecord, hsend, if_pos (enterFault_st_fault _)]
  exact ⟨rfl, rfl, rfl⟩

theorem replayAll_of_granted (hgranted : (drawAlloc s).1 = true) : (replayAll (c :: rest) s).fault = false := by
  have hends := sendRecord_ends c s hfault
  have hkept := hends.fault_eq_false (.inr hgranted)
  rw [replayAll_cons hfault, if_neg (ne_true_of_eq_false hkept)]
  exact replayAll_fault_of_alloc rest hkept (hends.alloc_of_kept hkept (.inr ⟨q, henc, hq⟩))

end

/-- Settles O58: with quiet boundaries the loop is the replay (`spamLoop_append`), whose frame, counts and faults are
those of its sends. -/
theorem spamallReplaysEveryRecord : Obligations.SpamallReplaysEveryRecord := by
  refine fun s hfault => ⟨fun hnone => exec_rplSpamall_of_some hfault (rplSpamall_of_none hnone _),
    fun unknown recs more u hopen hrecs hdraws hselect hescape hu => ?replayed⟩
  have hframe := replayAll_frame recs (s := replayStart s) hfault
  have hloop := spamLoop_append recs [] (s := replayStart s) hfault ⟨hselect, hescape, rfl⟩ hdraws s.result s.value
  rw [← hu] at hframe hloop
  have hpaused : u.paused = false := (congrArg State.paused hframe :)
  have hrun : rplSpamall s.args.path s = some
      (if u.fault = true then raise .fHwAlloc (u.withReport s.result s.value)
        else done (u.withReport s.result s.value)) := by
    have hdone : { u.withReport s.result s.value with paused := false } = u.withReport s.result s.value := by
      rw [← hpaused]
      rfl
    rw [rplSpamall_of_some hopen, ← hrecs]
    rw [List.append_nil] at hloop
    refine hloop.trans ?_
    rw [spamLoop, hdone, apply_ite some]
  refine ⟨(exec_rplSpamall_of_some hfault hrun).trans ?_, hpaused, (congrArg State.flags hframe :),
    (congrArg State.cat hframe :), (congrArg State.recents hframe :), (congrArg State.ses hframe :),
    (congrArg State.rx hframe :),
    fun halloc => hu ▸ replayAll_fault_of_alloc recs hfault halloc, fun hkept => ?counts,
    fun c rest q hcons henc hq hfresh hbusy => ?first⟩
  · by_cases hset : u.fault = true
    · rw [if_pos hset, if_pos hset]
      rfl
    · rw [if_neg hset, if_neg hset]
      rfl
  case counts =>
    subst hu
    obtain ⟨hidx, hlows⟩ := replayAll_counts recs (s := replayStart s) hfault hkept
    exact ⟨hidx.trans (Nat.zero_add _), hlows, replayAll_cmd recs (s := replayStart s) hfault hkept⟩
  case first =>
    rw [hu, hcons]
    exact ⟨replayAll_of_refused (s := replayStart s) rest hfault henc hq hfresh hbusy,
      replayAll_of_granted (s := replayStart s) rest hfault henc hq⟩

/-! ## A sample at a record boundary (46_session.md R279, 60_exceptions.md R308) -/

/-- The state of the record loop at the boundary of the next record, the samples drawn: what the replay of the records
before has left. -/
def boundaryState (s u : State) (more : List (List InputFlags)) : State :=
  (u.withReport s.result s.value).withBoundaries more

/-- A cancelled boundary leaves `rec_idx` and the transmit side, and `PAUSED` false. -/
theorem cancelled_boundaryState {s u t : State} {samples : List InputFlags} {more : List (List InputFlags)}
    (h : boundary samples (boundaryState s u more) = .cancelled t) :
    t.recIdx = u.recIdx ∧ t.paused = false ∧ t.tx = u.tx := by
  rw [boundary_frame _ _ t (.inr h)]
  exact ⟨rfl, rfl, rfl⟩

section
variable {s u : State} {first rest : List Command} {c : Command} {samples : List InputFlags}
  {more : List (List InputFlags)} (hfault : s.fault = false) (hquiet : Quiet s)
  (hdraws : s.env.boundaries = List.replicate first.length [] ++ samples :: more) (hu : u = replayAll first s)
  (hkept : u.fault = false)
include hfault hquiet hu

theorem boundaryState_quiet (more : List (List InputFlags)) : Quiet (boundaryState s u more) := by
  have hframe := replayAll_frame first hfault
  rw [← hu] at hframe
  have hflags : u.flags = s.flags := (congrArg State.flags hframe :)
  have hpaused : u.paused = s.paused := (congrArg State.paused hframe :)
  exact hquiet.of_eq hflags hpaused

include hdraws hkept

/-- The loop comes to the boundary after the first records with the state their replay has left. -/
theorem spamLoop_reaches : u.env.boundaries = samples :: more ∧
    spamLoop (first ++ c :: rest) s = spamLoop (c :: rest) (u.withReport s.result s.value) := by
  have hloop := spamLoop_append first (c :: rest) hfault hquiet hdraws s.result s.value
  have hleft := replayAll_boundaries first hfault (hu ▸ hkept)
  rw [← hu, if_neg (ne_true_of_eq_false hkept)] at hloop
  rw [← hu, hdraws, List.drop_left' List.length_replicate] at hleft
  exact ⟨hleft, hloop⟩

theorem spamLoop_cancelled {t : State} (h : boundary samples (boundaryState s u more) = .cancelled t) :
    spamLoop (first ++ c :: rest) s = some (raise .eCancelled t) := by
  obtain ⟨hleft, hloop⟩ := spamLoop_reaches (c := c) (rest := rest) hfault hquiet hdraws hu hkept
  exact hloop.trans (spamLoop_of_cancelled (s := u.withReport s.result s.value) hleft c rest h)

theorem spamLoop_stuck (h : boundary samples (boundaryState s u more) = .stuck) :
    spamLoop (first ++ c :: rest) s = none := by
  obtain ⟨hleft, hloop⟩ := spamLoop_reaches (c := c) (rest := rest) hfault hquiet hdraws hu hkept
  exact hloop.trans (spamLoop_of_stuck (s := u.withReport s.result s.value) hleft c rest h)

/-- A boundary that goes on and changes nothing is as good as one without a sample. -/
theorem spamLoop_unchanged (h : boundary samples (boundaryState s u more) = .go (boundaryState s u more)) :
    spamLoop (first ++ c :: rest) s =
      spamLoop (first ++ c :: rest) (s.withBoundaries (List.replicate first.length [] ++ [] :: more)) := by
  obtain ⟨hleft, hloop⟩ := spamLoop_reaches (c := c) (rest := rest) hfault hquiet hdraws hu hkept
  have hu' := replayAll_withBoundaries first hfault (hu ▸ hkept) (List.replicate first.length [] ++ [] :: more)
  rw [List.drop_left' List.length_replicate, ← hu] at hu'
  obtain ⟨hleft', hloop'⟩ := spamLoop_reaches (c := c) (rest := rest)
    (s := s.withBoundaries (List.replicate first.length [] ++ [] :: more)) hfault { hquiet with } rfl hu'.symm hkept
  rw [hloop, hloop', spamLoop_of_go (s := u.withReport s.result s.value) hleft c rest h]
  exact (spamLoop_of_go (s := (u.withBoundaries ([] :: more)).withReport s.result s.value) rfl c rest
    (boundary_of_no_sample (boundaryState_quiet hfault hquiet hu more))).symm

end

/-- Settles O59: after the first `k` records the loop is at a quiet boundary (`spamLoop_reaches`), and each case is what
the samples make of it. -/
theorem spamallStopsAtBoundary : Obligations.SpamallStopsAtBoundary := by
  intro s u unknown recs k samples more hfault hopen hrecs hk hdraws hselect hescape hu hkept
  have hquiet : Quiet (replayStart s) := ⟨hselect, hescape, rfl⟩
  have hsplit : recs = recs.take k ++ recs[k] :: recs.drop (k + 1) := by
    rw [List.getElem_cons_drop, List.take_append_drop]
  have hlength : (recs.take k).length = k := List.length_take_of_le hk.le
  have hstart : (replayStart s).env.boundaries = List.replicate (recs.take k).length [] ++ samples :: more := by
    rw [hlength]
    exact hdraws
  have hrun : rplSpamall s.args.path s = spamLoop (recs.take k ++ recs[k] :: recs.drop (k + 1)) (replayStart s) := by
    rw [rplSpamall_of_some hopen, ← hrecs, ← hsplit]
  have hquietk := boundaryState_quiet (s := replayStart s) hfault hquiet hu more
  have cancels (h : ∃ t, boundary samples (boundaryState (replayStart s) u more) = .cancelled t) :
      ∃ t, exec .rplSpamall s = .next t ∧ t.result = .eCancelled ∧ t.recIdx = k ∧ t.paused = false ∧ t.tx = u.tx := by
    obtain ⟨t, ht⟩ := h
    have hidx : u.recIdx = k := by
      rw [hu, (replayAll_counts _ (s := replayStart s) hfault (hu ▸ hkept)).1, hlength]
      exact Nat.zero_add k
    obtain ⟨hsame, hunpaused, htx⟩ := cancelled_boundaryState ht
    exact ⟨_, exec_rplSpamall_of_some hfault
      (hrun.trans (spamLoop_cancelled (s := replayStart s) hfault hquiet hstart hu hkept ht)), rfl, hsame.trans hidx,
      hunpaused, htx⟩
  refine ⟨fun f rest hsamples hcancel => cancels ?cancelled,
    fun f g rest hsamples hpause hstay hcancel => cancels ?paused,
    fun f hsamples hf hmore => ?resumed, fun f hsamples hstay hpause => ?endless⟩
  case cancelled =>
    rw [hsamples]
    exact boundary_of_cancel hcancel rest _
  case paused =>
    rw [hsamples, boundary_of_pause hquietk hpause hstay]
    exact boundary_of_cancel hcancel rest _
  case resumed =>
    have hgo := boundary_of_resume hquietk hf
    rw [← hsamples] at hgo
    have hquietdraws : List.replicate recs.length [] = List.replicate (recs.take k).length [] ++ [] :: more := by
      rw [hmore, hlength, ← List.replicate_succ, ← List.replicate_add]
      congr 1
      omega
    refine exec_rplSpamall_congr hfault hfault ?_
    rw [hrun, spamLoop_unchanged (s := replayStart s) hfault hquiet hstart hu hkept hgo, ← hsplit, ← hquietdraws]
    have hquietrun := rplSpamall_of_some (s := s.withBoundaries (List.replicate recs.length [])) hopen s.args.path
    exact (congrArg (spamLoop · _) hrecs).trans hquietrun.symm
  case endless =>
    rw [hsamples] at hstart
    have hstuck := boundary_of_endless_pause hquietk hpause hstay
    exact exec_rplSpamall_of_none hfault
      (hrun.trans (spamLoop_stuck (s := replayStart s) hfault hquiet hstart hu hkept hstuck))

end Sys2Proof.Machine
end

section
/-! PROOFS. The state after reset (O7, O8), the faulted block (O6), the refused allocation (O33), and the empty
sequence (O37). -/

namespace Sys2Proof.Machine

/-! ## Reset (10_state.md R38, 70_reset_and_hazards.md R341) -/

/-- Settles O7: the values stand in `State.reset`; the keys of the default table evaluate. -/
theorem resetValues : Obligations.ResetValues := by
  have keys : State.reset.params.table.map (·.1) = ["NEC".toList, "NECext".toList, "Samsung32".toList, "SIRC".toList,
      "SIRC15".toList, "SIRC20".toList, "Kaseikyo".toList, "RC5".toList, "RC6".toList] := by decide
  exact ⟨rfl, rfl, rfl, rfl, rfl, rfl, rfl, rfl, rfl, rfl, rfl, rfl, rfl, rfl, rfl, rfl, rfl, rfl, rfl, rfl,
    rfl, keys⟩

/-- Settles O8: no channel and no session exists (`txSafe_iff_of_idle`, `rxSafe_iff_of_uninit`, `sesSafe_of_empty`), and
every list is empty. -/
theorem resetIsSafe : Obligations.ResetIsSafe where
  seq := rfl
  tx := (txSafe_iff_of_idle rfl).2 ⟨nofun, nofun, rfl⟩
  rx := (rxSafe_iff_of_uninit rfl).2 ⟨rfl, rfl, rfl, Nat.zero_le _⟩
  ses := sesSafe_of_empty (z := .none) nofun rfl
  lists := ⟨Nat.zero_le _, Nat.zero_le _, List.nodup_nil⟩
  tables := ⟨rfl, rfl⟩
  paused := rfl

/-! ## A faulted block (60_exceptions.md R309) -/

section
variable {s : State} (hfault : s.fault = true)
include hfault

theorem issue_of_fault (body : State → Ended) :
    issue body s = .next { s with result := .fFaulted, value := .none } := by
  rw [issue_eq, operate_of_fault body hfault]
  rfl

/-- Every operation is issued, so it is refused before its body runs; RPL.SPAMALL asks for the fault itself. -/
theorem exec_of_fault (i : Instr) : exec i s = .next { s with result := .fFaulted, value := .none } := by
  cases i with
  | rplSpamall => exact if_pos hfault
  | _ => exact issue_of_fault hfault _

theorem runSelector_of_fault (op : OpByte) :
    runSelector op s = .next { s with result := .fFaulted, value := .none } := by
  unfold runSelector
  split
  · exact exec_of_fault hfault _
  · exact issue_of_fault hfault _

/-- No engine takes a step. -/
theorem txPlay_of_fault : txPlay s = s := if_neg (by simp [hfault])

theorem txEngine_of_fault : txEngine s = s := if_neg (by simp [hfault])

theorem rxComplete_of_fault (b : RawBatch) : rxComplete b s = s := if_neg (by simp [hfault])

theorem rxWave_of_fault (w : List Interval) : rxWave w s = s := by
  rcases rxWave_cases w s with ⟨_, b, _, _, heq⟩ | heq
  · rw [heq, rxComplete_of_fault hfault]
  · exact heq

/-- The host and the environment write neither unit, nor `FAULT`. -/
theorem perform_of_fault (e : Event) :
    (perform e s).fault = true ∧ (perform e s).tx = s.tx ∧ (perform e s).rx = s.rx := by
  have unchanged {t : State} (h : t = s) : t.fault = true ∧ t.tx = s.tx ∧ t.rx = s.rx := by
    rw [h]
    exact ⟨hfault, rfl, rfl⟩
  cases e with
  | hostSeq q =>
    cases hwf : TimingSeq.wf q with
    | true =>
      rw [perform, writeHostSeq_of_wf hwf]
      exact ⟨hfault, rfl, rfl⟩
    | false => exact unchanged (writeHostSeq_of_not_wf hwf s)
  | txPlay => exact unchanged (txPlay_of_fault hfault)
  | txComplete => exact unchanged (txEngine_of_fault hfault)
  | rxBatch b => exact unchanged (rxComplete_of_fault hfault b)
  | rxWave w => exact unchanged (rxWave_of_fault hfault w)
  | _ => exact ⟨hfault, rfl, rfl⟩

theorem agentStep_of_fault :
    (agentStep s).fault = true ∧ (agentStep s).tx = s.tx ∧ (agentStep s).rx = s.rx := by
  unfold agentStep
  split
  · exact ⟨hfault, rfl, rfl⟩
  · next rest _ => exact perform_of_fault (s := { s with agenda := rest }) hfault _

end

/-- Settles O6: every operation is refused (`exec_of_fault`, `runSelector_of_fault`), and no agent clears the fault or
takes an engine's step (`agentStep_of_fault`). -/
theorem faultedBlockRefusesEverything : Obligations.FaultedBlockRefusesEverything := by
  intro s hfault
  have refuses (op : OpByte) (hport : s.port = some op) :
      step s = .next { s with port := none, result := .fFaulted, value := .none } := by
    rw [step_of_port_some hport]
    exact runSelector_of_fault (s := { s with port := none }) hfault op
  refine ⟨exec_of_fault hfault, refuses, fun t ht => ?_⟩
  cases hport : s.port with
  | none =>
    rw [step_of_port_none hport] at ht
    cases ht
    exact agentStep_of_fault hfault
  | some op =>
    rw [refuses op hport] at ht
    cases ht
    exact ⟨hfault, rfl, rfl⟩

/-! ## A refused allocation (60_exceptions.md R306) -/

/-- A refused allocation ends TX.SEND, with no frame in flight that would end first. -/
theorem txSend_of_refused {s : State} {q : List Nat} (hq : q ≠ []) (hfresh : s.tx.alloc = false)
    (hbusy : s.tx.busy = false) (hrefused : (drawAlloc s).1 = false) (c : TxConfig) :
    txSend q c s = enterFault (drawAlloc s).2 := by
  have hensure : txEnsure c (txDrain s) = enterFault (drawAlloc s).2 := by
    rw [txDrain, if_neg (ne_true_of_eq_false hbusy), txEnsure_of_refused hfresh hrefused]
  rcases txSend_cases q c s with ⟨hnil, _⟩ | ⟨_, _, heq⟩ | ⟨_, hkept, _⟩
  · exact absurd hnil hq
  · rw [heq, hensure]
  · rw [hensure] at hkept
    cases hkept

/-- A selection ends with the send of its command, without an entry in the recent buffer. -/
theorem rplSelect_of_faulted {s : State} {i : Nat} {c : Command} (hc : s.cat[i]? = some c)
    (h : (txSendcmd { s with cmd := c }).faulted = true) : rplSelect i s = txSendcmd { s with cmd := c } := by
  simp only [rplSelect, hc, h, if_true]

/-- Settles O33: each operation ends as the TX.ENSURE or the RX.INIT that it begins with. -/
theorem allocationFailureFaults : Obligations.AllocationFailureFaults := by
  intro s hfault hrefused
  rw [exec_txEnsure hfault, exec_txSend hfault, exec_txSendcmd hfault, exec_rplSelect hfault, exec_rxInit hfault,
    exec_sesEnter hfault]
  refine ⟨fun hfresh => ?ensure, fun hfresh hbusy hq => ?send, fun q hq hfresh hbusy henc => ?sendcmd,
    fun c q hc hq hfresh hbusy henc => ?select, fun huninit => ?init, fun hnone huninit => ?enter⟩
  case ensure => rw [txEnsure_of_refused hfresh hrefused]; rfl
  case send => rw [txSend_of_refused hq hfresh hbusy hrefused]; rfl
  case sendcmd => rw [txSendcmd_of_refused henc hq hfresh hbusy hrefused]; rfl
  case select =>
    have hsent := txSendcmd_of_refused (s := { s with cmd := c }) henc hq hfresh hbusy hrefused
    rw [rplSelect_of_faulted hc (by rw [hsent]; rfl), hsent]
    rfl
  case init => rw [rxInit_of_refused huninit hrefused]; rfl
  case enter => rw [sesEnter_of_refused hnone (rxInit_of_refused huninit hrefused _)]; rfl

/-! ## An empty sequence (60_exceptions.md R302) -/

theorem txSend_nil (c : TxConfig) (s : State) : txSend [] c s = raise .eEmptySeq s := rfl

/-- Settles O37: both operations refuse before they look at a unit (`txSend_nil`, `decMatch_of_nil`). -/
theorem emptySequenceRefused : Obligations.EmptySequenceRefused := by
  refine fun s hfault => ⟨fun hempty => ?send, fun hempty => ?decode⟩
  case send =>
    rw [exec_txSend hfault, hempty, txSend_nil]
    rfl
  case decode =>
    rw [exec_decMatch hfault, decMatch_of_nil hempty]
    rfl

end Sys2Proof.Machine
end

section
/-! PROOFS. Who writes the input flags (O5). -/

namespace Sys2Proof.Machine

/-! ## Operations leave the input flags (60_exceptions.md R313) -/

theorem writeSeq_flags (r : Except ResultCode TimingSeq) (s : State) : (writeSeq r s).st.flags = s.flags := by
  rcases writeSeq_cases r s with ⟨_, _, h⟩ | ⟨_, _, h⟩ <;> rw [h] <;> rfl

theorem txEnsure_flags (c : TxConfig) (s : State) : (txEnsure c s).st.flags = s.flags := by
  rw [txEnsure_frame]

theorem txSend_flags (q : List Nat) (c : TxConfig) (s : State) : (txSend q c s).st.flags = s.flags := by
  rw [txSend_frame]

theorem txSendcmd_flags (s : State) : (txSendcmd s).st.flags = s.flags := by
  rw [txSendcmd_frame]

theorem rxInit_flags (c : RxConfig) (s : State) : (rxInit c s).st.flags = s.flags := by
  rcases rxInit_cases c s with ⟨_, h⟩ | ⟨_, _, h⟩ | ⟨_, _, h⟩ <;> rw [h] <;> rfl

theorem rxPoll_flags (s : State) : (rxPoll s).st.flags = s.flags := by
  rcases rxPoll_cases s with ⟨_, h⟩ | ⟨_, _, _, h⟩ | ⟨_, _, h⟩ <;> rw [h] <;> rfl

theorem rxRearm_flags (s : State) : (rxRearm s).st.flags = s.flags := by
  rcases rxRearm_cases s with ⟨_, _, h, _⟩ | ⟨_, _, _, h⟩ <;> rw [h] <;> rfl

theorem rxDrain_flags (s : State) : (rxDrain s).st.flags = s.flags := by
  unfold rxDrain
  split <;> rfl

theorem rxRestart_flags (s : State) : (rxRestart s).st.flags = s.flags := by
  unfold rxRestart
  split <;> rfl

theorem rxDeinit_flags (s : State) : (rxDeinit s).st.flags = s.flags := by
  rw [rxDeinit_st]

theorem decMatch_flags (s : State) : (decMatch s).st.flags = s.flags := by
  rw [decMatch_st]

theorem sesEnter_flags (c : RxConfig) (s : State) : (sesEnter c s).st.flags = s.flags := by
  unfold sesEnter
  split
  · rfl
  · dsimp only
    split <;> exact rxInit_flags c s

/-- The rearm that ends a session operation leaves the flags (44_receive.md R228). -/
theorem sesRearm_flags (s : State) : (sesRearm s).flags = s.flags := rxRearm_flags s

theorem sesCapture_flags (s : State) : (sesCapture s).st.flags = s.flags := by
  rcases sesCapture_cases s with ⟨_, h⟩ | ⟨_, _, h⟩ | ⟨_, _, _, _, ⟨_, h⟩ | ⟨_, h⟩⟩ <;> rw [h]
  · rfl
  · rfl
  · exact sesRearm_flags _

theorem sesCommit_flags (name : Text) (s : State) : (sesCommit name s).st.flags = s.flags := by
  unfold sesCommit
  split
  · rfl
  · split
    · rfl
    · exact sesRearm_flags s

theorem sesDiscard_flags (s : State) : (sesDiscard s).st.flags = s.flags := by
  unfold sesDiscard
  split
  · rfl
  · exact sesRearm_flags s

theorem sesFlush_flags (path devname : Text) (s : State) : (sesFlush path devname s).st.flags = s.flags := by
  unfold sesFlush
  split
  · rfl
  · split
    · rfl
    · dsimp only
      split <;> rfl

theorem sesExit_flags (s : State) : (sesExit s).st.flags = s.flags := by
  unfold sesExit
  split
  · rfl
  · exact rxDeinit_flags { s with cat := [] }

theorem rplLoad_flags (path : Text) (s : State) : (rplLoad path s).st.flags = s.flags := by
  unfold rplLoad
  dsimp only
  split <;> rfl

theorem rplSelect_flags (i : Nat) (s : State) : (rplSelect i s).st.flags = s.flags := by
  unfold rplSelect
  split
  · rfl
  · next c _ =>
    have sent : (txSendcmd { s with cmd := c }).st.flags = s.flags := txSendcmd_flags { s with cmd := c }
    dsimp only
    split <;> exact sent

/-- The next state, if there is one, has the flags as they were. -/
def AnswerKeepsFlags (s : State) (a : Answer) : Prop := ∀ t, a = .next t → t.flags = s.flags

/-- The entry and the end of an operation leave the flags (R309, R315). -/
theorem issue_keepsFlags {body : State → Ended} {s : State} (h : (body s).st.flags = s.flags) :
    AnswerKeepsFlags s (issue body s) := by
  rintro _ ⟨⟩
  rcases operate_cases body s with ⟨_, heq⟩ | ⟨_, heq⟩ <;> rw [heq]
  · rfl
  · exact h

/-- Every operation but RPL.SPAMALL, which reads and clears two flags at its record boundaries (R279). -/
theorem exec_keepsFlags {i : Instr} (s : State) (hi : i ≠ .rplSpamall) : AnswerKeepsFlags s (exec i s) :=
  match i with
  | .primAppendrun | .primCoalesce | .famPd | .famPw | .famBiphase | .norm | .seqTotext | .recInsert =>
    issue_keepsFlags rfl
  | .encNec | .encNecext | .encRc5 | .encRc6 | .encSamsung32 | .encSirc | .encSirc15 | .encSirc20 | .encKaseikyo
  | .encRaw | .encAuto | .seqFromtext => issue_keepsFlags (writeSeq_flags _ s)
  | .txEnsure => issue_keepsFlags (txEnsure_flags _ s)
  | .txSend => issue_keepsFlags (txSend_flags _ _ s)
  | .txSendcmd => issue_keepsFlags (txSendcmd_flags s)
  | .rxInit => issue_keepsFlags (rxInit_flags _ s)
  | .rxPoll => issue_keepsFlags (rxPoll_flags s)
  | .rxRearm => issue_keepsFlags (rxRearm_flags s)
  | .rxDrain => issue_keepsFlags (rxDrain_flags s)
  | .rxRestart => issue_keepsFlags (rxRestart_flags s)
  | .rxDeinit => issue_keepsFlags (rxDeinit_flags s)
  | .decMatch => issue_keepsFlags (decMatch_flags s)
  | .sesEnter => issue_keepsFlags (sesEnter_flags _ s)
  | .sesCapture => issue_keepsFlags (sesCapture_flags s)
  | .sesCommit => issue_keepsFlags (sesCommit_flags _ s)
  | .sesDiscard => issue_keepsFlags (sesDiscard_flags s)
  | .sesFlush => issue_keepsFlags (sesFlush_flags _ _ s)
  | .sesExit => issue_keepsFlags (sesExit_flags s)
  | .rplLoad => issue_keepsFlags (rplLoad_flags _ s)
  | .rplSelect => issue_keepsFlags (rplSelect_flags _ s)
  | .rplSpamall => absurd rfl hi

/-- Every selector but 0x62, reserved ones too. -/
theorem runSelector_keepsFlags {op : OpByte} (s : State) (hop : op ≠ 0x62) :
    AnswerKeepsFlags s (runSelector op s) := by
  unfold runSelector
  split
  · next i rest hdecode =>
    obtain ⟨rfl, _⟩ := decode_cons_eq_ok.mp hdecode
    exact exec_keepsFlags s (fun hi => hop (congrArg selector hi))
  · exact issue_keepsFlags rfl

/-! ## The events that write the input flags, and those that do not (60_exceptions.md R313) -/

theorem writeHostSeq_flags (q : List Nat) (s : State) : (writeHostSeq q s).flags = s.flags := by
  unfold writeHostSeq
  split <;> rfl

theorem txPlay_flags (s : State) : (txPlay s).flags = s.flags := by
  unfold txPlay
  split <;> rfl

theorem txEngine_flags (s : State) : (txEngine s).flags = s.flags := by
  unfold txEngine
  split <;> rfl

theorem rxComplete_flags (b : RawBatch) (s : State) : (rxComplete b s).flags = s.flags := by
  rcases rxComplete_cases b s with ⟨_, _, _, h⟩ | h <;> rw [h]

theorem rxWave_flags (w : List Interval) (s : State) : (rxWave w s).flags = s.flags := by
  rcases rxWave_cases w s with ⟨_, b, _, _, h⟩ | h <;> rw [h]
  exact rxComplete_flags b s

theorem perform_flags {e : Event} (s : State) (hinput : ∀ f, e ≠ .input f) (hpoll : ∀ n, e ≠ .hostPoll n) :
    (perform e s).flags = s.flags := by
  cases e with
  | input f => exact absurd rfl (hinput f)
  | hostPoll n => exact absurd rfl (hpoll n)
  | hostSeq q => exact writeHostSeq_flags q s
  | txPlay => exact txPlay_flags s
  | txComplete => exact txEngine_flags s
  | rxBatch b => exact rxComplete_flags b s
  | rxWave w => exact rxWave_flags w s
  | _ => rfl

/-- A step without an operation leaves the flags, unless its event is an input or a poll. -/
theorem agentStep_flags {s : State}
    (h : ∀ rest, (∀ f, s.agenda ≠ .input f :: rest) ∧ ∀ n, s.agenda ≠ .hostPoll n :: rest) :
    (agentStep s).flags = s.flags := by
  unfold agentStep
  split
  · rfl
  · next e rest hagenda =>
    obtain ⟨hinput, hpoll⟩ := h rest
    exact perform_flags { s with agenda := rest } (fun f he => hinput f (he ▸ hagenda))
      (fun n he => hpoll n (he ▸ hagenda))

/-- Settles O5: neither an operation (`runSelector_keepsFlags`) nor another event (`agentStep_flags`) writes the flags;
an input event sets those it carries and a poll is `readAndClear`. -/
theorem pollReadsAndClearsFlag : Obligations.PollReadsAndClearsFlag := by
  refine ⟨fun s t ht hop hevent => ?others, fun s rest hport => ?flagEvents⟩
  case others =>
    cases hport : s.port with
    | none =>
      rw [step_of_port_none hport] at ht
      cases ht
      exact agentStep_flags (hevent hport)
    | some op =>
      rw [step_of_port_some hport] at ht
      exact runSelector_keepsFlags { s with port := none } (fun h => hop (h ▸ hport)) t ht
  case flagEvents =>
    have take {e : Event} (h : s.agenda = e :: rest) := step_of_agenda_cons hport h
    exact ⟨fun _ h => take h, take, take, take, take⟩

end Sys2Proof.Machine
end
